-- ==== Sys2Proof/Word.lean ====
section
/-! DEFINITION. The word types of the ARX protocol codec block (spec/00_scope.md R6, R10, R11; spec/30_encoding.md R53).
All are unsigned bit vectors, bit 0 the least significant (R11). -/

namespace Sys2Proof

/-- One byte of a port, a frame or a payload (R11, R12). -/
abbrev Byte := BitVec 8

/-- The 16-bit control word `CW` of a request (R18, R53). -/
abbrev ControlWord := BitVec 16

/-- A 16-bit channel configuration word (R10, R60). -/
abbrev ConfigWord := BitVec 16

/-- A 32-bit value port or register, `DIN_VAL` or `DOUT_VAL` (R6, R19, R22). -/
abbrev Value := BitVec 32

end Sys2Proof
end

