-- ==== Sys2Proof/Syntax.lean ====
section
/-! DEFINITION. The twelve operations of the block, one constructor per row of spec/opcode_table.json
(spec/30_encoding.md R53 to R55). A constructor carries exactly the control-word fields its operation uses; the fields
it ignores (R54) are not part of the instruction. -/

namespace Sys2Proof

/-- Control-word field `S` (bit 14): where HEXDEC and HEXDECA take their characters from (R53). -/
inductive Source where
  /-- `S = 0`: the input ports `DIN_LEN`, `DIN_BYTES`. -/
  | ports
  /-- `S = 1`: the parser payload `PLEN`, `PBUF`. -/
  | payload
  deriving DecidableEq, Repr

/-- Control-word field `B` (bit 13): which board address FRMBLD sends (R53). -/
inductive AddressSelect where
  /-- `B = 0`: the address in `TARGET`. -/
  | target
  /-- `B = 1`: the broadcast address 0. -/
  | broadcast
  deriving DecidableEq, Repr

/-- An operation with the operands its control word carries. `width` is field `W` and `count` is field `N`, unsigned and
used as they stand (R54). -/
inductive Instr where
  /-- HEXENC, `OP` 0x1 (R74). -/
  | hexenc (width : Nat)
  /-- HEXDEC, `OP` 0x2 (R75). -/
  | hexdec (source : Source)
  /-- HEXDECA, `OP` 0x3 (R76). -/
  | hexdeca (source : Source) (count width : Nat)
  /-- CFGDEC, `OP` 0x4 (R81). -/
  | cfgdec
  /-- CFGENC, `OP` 0x5 (R82). -/
  | cfgenc
  /-- SETTGT, `OP` 0x6 (R86). -/
  | settgt
  /-- ADDRDEC, `OP` 0x7 (R87). -/
  | addrdec
  /-- FRMBLD, `OP` 0x8 (R88). -/
  | frmbld (select : AddressSelect)
  /-- PRSTART, `OP` 0x9 (R93). -/
  | prstart
  /-- PRBYTE, `OP` 0xA (R94). -/
  | prbyte
  /-- PREND, `OP` 0xB (R95). -/
  | prend
  /-- PARSE, `OP` 0xC (R96). -/
  | parse
  deriving DecidableEq, Repr

end Sys2Proof
end

