-- ==== Sys2Proof/WellFormed.lean ====
section
/-! DEFINITION. An instruction is well formed when its operands fit their control-word fields (spec/30_encoding.md R53):
`W` has 4 bits and `N` has 5. This is a check of the SYNTAX only: a width of 0 or 9 to 15, or a count of 0 or 17 to 31, is
well formed, and the operation itself refuses it with status BAD_OPERAND (R54, R74, R76). -/

namespace Sys2Proof

/-- `W` fits its field `CW[7:4]` (R53). -/
def widthFits (width : Nat) : Bool := width < 16

/-- `N` fits its field `CW[12:8]` (R53). -/
def countFits (count : Nat) : Bool := count < 32

/-- Every operand fits its field of the control word (R53). -/
def Instr.wellFormed : Instr → Bool
  | .hexenc width => widthFits width
  | .hexdec _ => true
  | .hexdeca _ count width => countFits count && widthFits width
  | .cfgdec => true
  | .cfgenc => true
  | .settgt => true
  | .addrdec => true
  | .frmbld _ => true
  | .prstart => true
  | .prbyte => true
  | .prend => true
  | .parse => true

/-- `i.wellFormed` as a proposition. -/
abbrev WellFormed (i : Instr) : Prop := i.wellFormed = true

end Sys2Proof
end

