-- ==== Sys2Proof/Decode.lean ====
section
/-! DEFINITION. Decoding a control word (spec/30_encoding.md R53 to R56), total over all 65536 words, and the encoder
written from the same tables. -/

namespace Sys2Proof

/-- Why a control word is illegal (R56). -/
inductive DecodeError where
  /-- `CW[15]` is 1. -/
  | reservedBit
  /-- `OP` is 0x0, 0xD, 0xE or 0xF. -/
  | reservedOp (op : BitVec 4)
  deriving DecidableEq, Repr

/-- `OP = CW[3:0]` (R53). -/
def opField (cw : ControlWord) : BitVec 4 := cw.extractLsb' 0 4

/-- `W = CW[7:4]` (R53). -/
def widthField (cw : ControlWord) : BitVec 4 := cw.extractLsb' 4 4

/-- `N = CW[12:8]` (R53). -/
def countField (cw : ControlWord) : BitVec 5 := cw.extractLsb' 8 5

/-- `B = CW[13]` (R53). -/
def broadcastBit (cw : ControlWord) : Bool := cw.getLsbD 13

/-- `S = CW[14]` (R53). -/
def sourceBit (cw : ControlWord) : Bool := cw.getLsbD 14

/-- The reserved bit `CW[15]` (R53). -/
def reservedBit (cw : ControlWord) : Bool := cw.getLsbD 15

/-- `S = 1` selects the parser payload (R53). -/
def sourceOfBit : Bool → Source
  | false => .ports
  | true => .payload

/-- `B = 1` selects the broadcast address (R53). -/
def addressOfBit : Bool → AddressSelect
  | false => .target
  | true => .broadcast

/-- The operation a control word selects (R55), or why it is illegal (R56). The fields the operation does not use are
ignored (R54). -/
def decode (cw : ControlWord) : Except DecodeError Instr :=
  if reservedBit cw then .error .reservedBit
  else
    match opField cw with
    | 0x1#4 => .ok (.hexenc (widthField cw).toNat)
    | 0x2#4 => .ok (.hexdec (sourceOfBit (sourceBit cw)))
    | 0x3#4 => .ok (.hexdeca (sourceOfBit (sourceBit cw)) (countField cw).toNat (widthField cw).toNat)
    | 0x4#4 => .ok .cfgdec
    | 0x5#4 => .ok .cfgenc
    | 0x6#4 => .ok .settgt
    | 0x7#4 => .ok .addrdec
    | 0x8#4 => .ok (.frmbld (addressOfBit (broadcastBit cw)))
    | 0x9#4 => .ok .prstart
    | 0xA#4 => .ok .prbyte
    | 0xB#4 => .ok .prend
    | 0xC#4 => .ok .parse
    | op => .error (.reservedOp op)

/-- The `OP` value of an operation (R55). -/
def Instr.opcode : Instr → BitVec 4
  | .hexenc _ => 0x1#4
  | .hexdec _ => 0x2#4
  | .hexdeca _ _ _ => 0x3#4
  | .cfgdec => 0x4#4
  | .cfgenc => 0x5#4
  | .settgt => 0x6#4
  | .addrdec => 0x7#4
  | .frmbld _ => 0x8#4
  | .prstart => 0x9#4
  | .prbyte => 0xA#4
  | .prend => 0xB#4
  | .parse => 0xC#4

/-- The bit of `S` (R53). -/
def Source.bit : Source → Bool
  | .ports => false
  | .payload => true

/-- The bit of `B` (R53). -/
def AddressSelect.bit : AddressSelect → Bool
  | .target => false
  | .broadcast => true

/-- A `w`-bit word that holds the field `v` with its lowest bit at position `lo`, and 0 elsewhere (R11). -/
def placeBits (w lo : Nat) {n : Nat} (v : BitVec n) : BitVec w := v.setWidth w <<< lo

/-- A control word from its fields: `OP` at 3:0, `W` at 7:4, `N` at 12:8, `B` at 13, `S` at 14, bit 15 zero (R53). -/
def controlWord (op : BitVec 4) (width count : Nat) (b s : Bool) : ControlWord :=
  placeBits 16 0 op ||| placeBits 16 4 (BitVec.ofNat 4 width) ||| placeBits 16 8 (BitVec.ofNat 5 count)
    ||| placeBits 16 13 (BitVec.ofBool b) ||| placeBits 16 14 (BitVec.ofBool s)

/-- The control word of a well-formed instruction (R53, R55), with 0 in the fields it ignores. -/
def encode (i : Instr) : ControlWord :=
  match i with
  | .hexenc width => controlWord i.opcode width 0 false false
  | .hexdec source => controlWord i.opcode 0 0 false source.bit
  | .hexdeca source count width => controlWord i.opcode width count false source.bit
  | .cfgdec => controlWord i.opcode 0 0 false false
  | .cfgenc => controlWord i.opcode 0 0 false false
  | .settgt => controlWord i.opcode 0 0 false false
  | .addrdec => controlWord i.opcode 0 0 false false
  | .frmbld select => controlWord i.opcode 0 0 select.bit false
  | .prstart => controlWord i.opcode 0 0 false false
  | .prbyte => controlWord i.opcode 0 0 false false
  | .prend => controlWord i.opcode 0 0 false false
  | .parse => controlWord i.opcode 0 0 false false

/-- The bits of a control word that an operation reads: `OP`, the reserved bit and the fields of R55's pattern. -/
def Instr.usedBits : Instr → ControlWord
  | .hexenc _ => 0x80FF#16
  | .hexdec _ => 0xC00F#16
  | .hexdeca _ _ _ => 0xDFFF#16
  | .cfgdec => 0x800F#16
  | .cfgenc => 0x800F#16
  | .settgt => 0x800F#16
  | .addrdec => 0x800F#16
  | .frmbld _ => 0xA00F#16
  | .prstart => 0x800F#16
  | .prbyte => 0x800F#16
  | .prend => 0x800F#16
  | .parse => 0x800F#16

/-- The control word whose bits spec/opcode_table.json numbers as `w`, `nbits` of them given and the rest 0. A request is
one 16-bit word and never longer (R53). -/
def tableWord (nbits w : Nat) : ControlWord := BitVec.ofNat 16 (w % 2 ^ nbits)

/-- The instruction the decoder reads from a table row's word; none where the word is illegal. -/
def decodeTableWord (nbits w : Nat) : Option Instr :=
  match decode (tableWord nbits w) with
  | .ok i => some i
  | .error _ => none

end Sys2Proof
end

