-- ==== Sys2Proof/Config.lean ====
section
/-! DEFINITION. The implementation parameters of the block (spec/00_scope.md R6 to R9). `MAX_W` and `MAX_N` are fixed;
`CFG_LAYOUT`, `MAX_ARGS`, `MAX_PAYLOAD` and `MAX_BUF` are the parameters that "a model takes as arguments" (R8, R17):
a `BuildParams` value, of which `BuildParams.arxc` is this hardware's. -/

namespace Sys2Proof

/-- `CFG_LAYOUT`: which of the two layouts of the channel configuration word the block was built with (R9, R60, R61). -/
inductive CfgLayout where
  /-- Attenuator 2 at bits 14:9, DC power at bit 15 (R60). -/
  | icd
  /-- Attenuator 2 at bits 13:8, DC power at bit 7; decoding only (R61, R84). -/
  | impl
  deriving DecidableEq, Repr

/-- The build-time parameters of one instance of the block (R8, R9, R17, R26): no request reads or changes them. -/
structure BuildParams where
  /-- `CFG_LAYOUT` (R9). -/
  layout : CfgLayout
  /-- `MAX_ARGS`: the longest argument field FRMBLD accepts, in bytes (R8). -/
  maxArgs : Nat
  /-- `MAX_PAYLOAD`: the longest ACK payload the parser stores, in bytes (R8). -/
  maxPayload : Nat
  /-- `MAX_BUF`: the length of the `DIN_BYTES` port and of the `DOUT_BYTES` register, in bytes (R8). -/
  maxBuf : Nat
  deriving DecidableEq, Repr

/-- `MAX_W`, the largest hex field width in characters (R6). -/
def maxW : Nat := 8

/-- `MAX_N`, the largest field count of HEXDECA, and the number of entries of its result arrays (R7, R23). -/
def maxN : Nat := 16

/-- This hardware's parameters: `ICD`, 64, 128, 256 (R8, R9). -/
def BuildParams.arxc : BuildParams :=
  { layout := .icd, maxArgs := 64, maxPayload := 128, maxBuf := 256 }

/-- The least sizes the source's commands need (R8, fourth column), and a built frame of `MAX_ARGS + 6` bytes fits the
`DOUT_BYTES` register (R8, last row; R63). -/
abbrev BuildParams.Sizes (p : BuildParams) : Prop :=
  64 ≤ p.maxArgs ∧ 71 ≤ p.maxPayload ∧ 128 ≤ p.maxBuf ∧ p.maxArgs + 6 ≤ p.maxBuf

end Sys2Proof
end

