-- ==== Sys2Proof/Machine/State.lean ====
section
/-! DEFINITION. The state of the block: its output registers (spec/10_state.md R20 to R24), its control register (R25), the
response parser's registers (R27 to R32), and three fields of the model's own: the build parameters, the input ports as the
request being served presents them, and the inputs still to come (notes/assumptions/1.md to 3.md). The block has no memory,
no register file and no program counter (R34 to R36, R38). -/

namespace Sys2Proof.Machine

/-- The values of `STATUS` (R20, R101). -/
inductive Status where
  | ok | hexOverflow | invalidHex | truncated | badOperand | bufOverflow | illegalOp | layoutUnsupported
  deriving DecidableEq, Repr

/-- The values of `PST` (R27). -/
inductive ParserState where
  | scan | ackp | nak1 | nak2 | nakt | done
  deriving DecidableEq, Repr

/-- The values of `PCLASS` (R28, R103). -/
inductive ParserClass where
  | pending | ack | nakNotRecognized | nakTooLong | nakFailed | nakUnknownReason | malformedNak | noResponse
  | payloadOverflow
  deriving DecidableEq, Repr

/-- The values of `PREASON` (R29, R69). -/
inductive NakReason where
  | none | invalidArgument | channelOutOfRange | i2cTimeout | i2cNack
  deriving DecidableEq, Repr

/-- The fields of the `DIN_CFG` port and of the `DOUT_CFG` register (R19, R24, R80); attenuators in half-dB steps. -/
structure ChannelConfig where
  /-- Lowpass filter wide. -/
  lp : Bool
  /-- Signal on. -/
  son : Bool
  /-- Highpass filter wide. -/
  hp : Bool
  /-- Attenuator 1. -/
  a1 : BitVec 6
  /-- Attenuator 2. -/
  a2 : BitVec 6
  /-- DC power flag. -/
  dc : Bool
  deriving DecidableEq, Repr

/-- The data input ports (R19). `bytes` lists the leading bytes of `DIN_BYTES`; a byte it does not list is driven 0x00, so
every list stands for one value of the port (notes/assumptions/4.md). -/
structure Ports where
  /-- `DIN_VAL`. -/
  val : Value
  /-- `DIN_LEN`. -/
  len : Nat
  /-- `DIN_BYTES`, index 0 first. -/
  bytes : List Byte
  /-- `DIN_MNEM`, `DIN_MNEM[0]` first on the wire. -/
  mnem : Vector Byte 4
  /-- `DIN_CFG`. -/
  cfg : ChannelConfig
  deriving DecidableEq, Repr

/-- What reaches the block from outside, one at a time (R48, R113, R114). -/
inductive Event where
  /-- The requester presents a request: a control word and the ports (R18, R19). -/
  | request (cw : ControlWord) (din : Ports)
  /-- The reset signal (R114). -/
  | reset
  deriving DecidableEq, Repr

/-- The response parser's registers (R27 to R32). -/
structure Parser where
  /-- `PST`. -/
  pst : ParserState
  /-- `PCLASS`. -/
  pclass : ParserClass
  /-- `PREASON`. -/
  preason : NakReason
  /-- `PCODE`. -/
  pcode : Byte
  /-- `PRSN`. -/
  prsn : Byte
  /-- `PTERM`. -/
  pterm : Bool
  /-- `PLEN`. -/
  plen : Nat
  /-- `PBUF`, `MAX_PAYLOAD` bytes. -/
  pbuf : List Byte
  deriving DecidableEq, Repr

/-- The machine. -/
structure State where
  /-- `STATUS` (R20). -/
  status : Status
  /-- `FLAGS`: bit 0 INV, bit 1 TRUNC, bit 2 EXCESS (R21). -/
  flags : BitVec 3
  /-- `DOUT_VAL` (R22). -/
  doutVal : Value
  /-- `DOUT_LEN` (R22). -/
  doutLen : Nat
  /-- `DOUT_BYTES`, `MAX_BUF` bytes (R22). -/
  doutBytes : List Byte
  /-- `DOUT_MASK` (R22). -/
  doutMask : BitVec 8
  /-- `DOUT_VALS[0..15]` (R23). -/
  doutVals : Vector Value maxN
  /-- `DOUT_MASKS[0..15]` (R23). -/
  doutMasks : Vector (BitVec 8) maxN
  /-- `DOUT_NVALID` (R23). -/
  doutNvalid : Nat
  /-- `DOUT_CFG` (R24). -/
  doutCfg : ChannelConfig
  /-- `DOUT_ADDR` (R24). -/
  doutAddr : BitVec 7
  /-- `DOUT_HI` (R24). -/
  doutHi : Bool
  /-- `TARGET` (R25). -/
  target : BitVec 7
  /-- The response parser's registers (R27 to R32). -/
  parser : Parser
  /-- The model's own: the parameters this instance was built with (R8, R9, R17); nothing writes them. -/
  params : BuildParams
  /-- The model's own: the input ports as presented with the latest request (R17, R19); no operation writes them. -/
  din : Ports
  /-- The model's own: the inputs still to come, the next one first (R48, R113, R125). -/
  pending : List Event
  deriving DecidableEq, Repr

/-- The reasons for which the machine could stop with a fault. There is none: "The block never traps, halts or raises"
(spec/60_exceptions.md R100), so no operation, and no step, raises one. Safe. -/
inductive Fault where
  deriving DecidableEq, Repr

/-- The reasons for which a step could be refused. -/
inductive Refusal where
  /-- An instruction that has no meaning yet, by its mnemonic; raised by exec's arm of that instruction only, and no arm
  raises it, since every operation has its meaning. Safe. -/
  | notModelled (mnemonic : String)
  deriving DecidableEq, Repr

/-- All fields 0 (R37). -/
def ChannelConfig.zero : ChannelConfig :=
  { lp := false, son := false, hp := false, a1 := 0, a2 := 0, dc := false }

/-- Ports driven to 0 throughout: the value the model's own port field has before any request
(notes/assumptions/2.md). -/
def Ports.zero : Ports :=
  { val := 0, len := 0, bytes := [], mnem := #v[0, 0, 0, 0], cfg := ChannelConfig.zero }

/-- The parser's registers after reset, with `PBUF` of `n` bytes (R37). -/
def Parser.resetOf (n : Nat) : Parser :=
  { pst := .scan, pclass := .pending, preason := .none, pcode := 0x00, prsn := 0x00, pterm := false, plen := 0
    pbuf := List.replicate n 0x00 }

/-- Every register of an instance built with parameters `p` at its reset value (R37, R114), nothing presented to it. -/
def State.resetOf (p : BuildParams) : State :=
  { status := .ok
    flags := 0
    doutVal := 0
    doutLen := 0
    doutBytes := List.replicate p.maxBuf 0x00
    doutMask := 0
    doutVals := Vector.replicate maxN 0
    doutMasks := Vector.replicate maxN 0
    doutNvalid := 0
    doutCfg := ChannelConfig.zero
    doutAddr := 0
    doutHi := false
    target := 0
    parser := Parser.resetOf p.maxPayload
    params := p
    din := Ports.zero
    pending := [] }

/-- This hardware right after reset (R37, R114): it "waits for its first request" (R115). -/
def State.reset : State := State.resetOf BuildParams.arxc

end Sys2Proof.Machine
end

