-- ==== Sys2Proof/Machine/Operands.lean ====
section
/-! DEFINITION. What operations read and how: the byte values of spec/00_scope.md R10 and R13, the range checks of `DIN_VAL`,
the two sources of hex characters (spec/40_hex_codec.md R75, R76), hex characters and fields (R71, R72, R74), the
configuration word (spec/30_encoding.md R60 to R62), and the numeric codes a requester reads from the registers whose values
have names (R20, R27 to R29). -/

namespace Sys2Proof.Machine

/-! ### Byte values -/

/-- ACK (R10). -/
def ackByte : Byte := 0x06#8

/-- NAK (R10). -/
def nakByte : Byte := 0x15#8

/-- CR, the terminator transmitted (R10). -/
def crByte : Byte := 0x0D#8

/-- LF (R13, R65). -/
def lfByte : Byte := 0x0A#8

/-- `TERM(b)`: CR or LF (R90). -/
def isTerm (b : Byte) : Bool := b == crByte || b == lfByte

/-! ### Numeric codes -/

/-- The code of `STATUS` (R20, R101). -/
def Status.code : Status → BitVec 4
  | .ok => 0
  | .hexOverflow => 1
  | .invalidHex => 2
  | .truncated => 3
  | .badOperand => 4
  | .bufOverflow => 5
  | .illegalOp => 6
  | .layoutUnsupported => 7

/-- The code of `PST` (R27). -/
def ParserState.code : ParserState → BitVec 3
  | .scan => 0
  | .ackp => 1
  | .nak1 => 2
  | .nak2 => 3
  | .nakt => 4
  | .done => 5

/-- The code of `PCLASS` (R28, R103). -/
def ParserClass.code : ParserClass → BitVec 4
  | .pending => 0
  | .ack => 1
  | .nakNotRecognized => 2
  | .nakTooLong => 3
  | .nakFailed => 4
  | .nakUnknownReason => 5
  | .malformedNak => 6
  | .noResponse => 7
  | .payloadOverflow => 8

/-- The code of `PREASON` (R29). -/
def NakReason.code : NakReason → BitVec 3
  | .none => 0
  | .invalidArgument => 1
  | .channelOutOfRange => 2
  | .i2cTimeout => 3
  | .i2cNack => 4

/-! ### Ports -/

/-- `DIN_VAL[31:n]` is 0: the value fits in `n` bits (R81, R86, R87, R94). -/
def valueFits (n : Nat) (v : Value) : Bool := v >>> n == 0

/-- Bytes 0 to `n - 1` of a byte port or register; a byte it does not list is 0x00. -/
def firstBytes : Nat → List Byte → List Byte
  | 0, _ => []
  | n + 1, [] => 0x00#8 :: firstBytes n []
  | n + 1, b :: bs => b :: firstBytes n bs

/-- `DIN_BYTES[0 .. DIN_LEN-1]` (R19). -/
def Ports.string (p : Ports) : List Byte := firstBytes p.len p.bytes

/-- `PBUF[0 .. PLEN-1]` (R32). -/
def Parser.payload (p : Parser) : List Byte := firstBytes p.plen p.pbuf

/-- `n` of R75, `L` of R76: how many characters the source holds. -/
def sourceLen (source : Source) (s : State) : Nat :=
  match source with
  | .ports => s.din.len
  | .payload => s.parser.plen

/-- `f` of R75, `p` of R76: the characters the source holds. -/
def sourceString (source : Source) (s : State) : List Byte :=
  match source with
  | .ports => s.din.string
  | .payload => s.parser.payload

/-! ### Hex characters and fields -/

/-- `ISHEX(b)` (R59, R71). -/
def isHex (b : Byte) : Bool :=
  (0x30#8 ≤ b && b ≤ 0x39#8) || (0x41#8 ≤ b && b ≤ 0x46#8)

/-- The digit a character contributes: `DIGIT(b)` for a hex character (R59, R71), 0 for any other (R72, R73). -/
def digitOf (b : Byte) : Nat :=
  if isHex b then (if b ≤ 0x39#8 then b.toNat - 0x30 else b.toNat - 0x37) else 0

/-- `HEXCHAR(d)`, upper case (R71). -/
def hexChar (d : BitVec 4) : Byte :=
  if d ≤ 9#4 then 0x30#8 + d.setWidth 8 else 0x37#8 + d.setWidth 8

/-- `v` of `DECODE(f)`, most significant character first (R40, R72). -/
def fieldValue (f : List Byte) : Nat :=
  f.foldl (fun v b => v * 16 + digitOf b) 0

/-- `m` of `DECODE(f)`: bit `i` set iff character `i` is not a hex character (R41, R72). -/
def fieldMask : List Byte → Nat
  | [] => 0
  | b :: f => (if isHex b then 0 else 1) + 2 * fieldMask f

/-- The width-`w` hex field of `v` (R40, R74): character `i` is `HEXCHAR(v[4*(w-1-i)+3 : 4*(w-1-i)])`. -/
def hexField (w : Nat) (v : Value) : List Byte :=
  (List.range w).map fun i => hexChar (v.extractLsb' (4 * (w - 1 - i)) 4)

/-- Characters `k*w` to `k*w + w - 1` of a payload: its field `k` (R43, R76). -/
def fieldAt (w k : Nat) (p : List Byte) : List Byte := (p.drop (k * w)).take w

/-! ### The channel configuration word -/

/-- `rev6` (R62): the 6 bits in reverse order, bit `i` of the result being bit `5 - i` of `v`. -/
def rev6 (v : BitVec 6) : BitVec 6 := v.reverse

/-- Attenuator 2 of a word under a layout (R60, R61, R81). -/
def atten2Of (layout : CfgLayout) (w : ConfigWord) : BitVec 6 :=
  match layout with
  | .icd => rev6 (w.extractLsb' 9 6)
  | .impl => rev6 (w.extractLsb' 8 6)

/-- The DC power flag of a word under a layout (R60, R61, R81). -/
def dcOf (layout : CfgLayout) (w : ConfigWord) : Bool :=
  match layout with
  | .icd => w.getLsbD 15
  | .impl => w.getLsbD 7

/-- The fields of a configuration word under a layout (R60, R61, R81). -/
def decodeConfig (layout : CfgLayout) (w : ConfigWord) : ChannelConfig :=
  { lp := w.getLsbD 0
    son := w.getLsbD 1 == w.getLsbD 0
    hp := w.getLsbD 2
    a1 := rev6 (w.extractLsb' 3 6)
    a2 := atten2Of layout w
    dc := dcOf layout w }

/-- Bit 1 of a configuration word: equal to bit 0 iff the signal is on (R60, R82). -/
def signalBit (c : ChannelConfig) : Bool := if c.son then c.lp else !c.lp

/-- The configuration word of the fields under `ICD` (R60, R82). -/
def encodeConfig (c : ChannelConfig) : ConfigWord :=
  placeBits 16 0 (BitVec.ofBool c.lp) ||| placeBits 16 1 (BitVec.ofBool (signalBit c))
    ||| placeBits 16 2 (BitVec.ofBool c.hp) ||| placeBits 16 3 (rev6 c.a1) ||| placeBits 16 9 (rev6 c.a2)
    ||| placeBits 16 15 (BitVec.ofBool c.dc)

/-! ### The NAK reason -/

/-- `'1' <= b <= '4'` (R69, R90). -/
def isReasonByte (b : Byte) : Bool := 0x31#8 ≤ b && b ≤ 0x34#8

/-- `PREASON` for a reason byte (R69, R90). -/
def reasonOf (b : Byte) : NakReason :=
  if b = 0x31#8 then .invalidArgument
  else if b = 0x32#8 then .channelOutOfRange
  else if b = 0x33#8 then .i2cTimeout
  else if b = 0x34#8 then .i2cNack
  else .none

/-! ### The command frame -/

/-- The address byte: bit 7 set, the board address below it (R63, R88). -/
def addressByte (a : BitVec 7) : Byte := 0x80#8 ||| a.setWidth 8

/-- The address FRMBLD sends (R88). -/
def selectedAddress (select : AddressSelect) (s : State) : BitVec 7 :=
  match select with
  | .target => s.target
  | .broadcast => 0

/-- The command frame of R42, R63 and R88, the arguments verbatim. -/
def commandFrame (a : BitVec 7) (mnem : Vector Byte 4) (args : List Byte) : List Byte :=
  addressByte a :: (mnem.toList ++ args ++ [crByte])

end Sys2Proof.Machine
end

