-- ==== Sys2Proof/Machine/Flags.lean ====
section
/-! DEFINITION. The block's only flags (spec/10_state.md R21), written whole by HEXDEC and HEXDECA (spec/40_hex_codec.md R75,
R76): bit 0 INV, bit 1 TRUNC, bit 2 EXCESS. -/

namespace Sys2Proof.Machine

/-- `{EXCESS, TRUNC, INV}` as the FLAGS register holds them (R21). -/
def flagsWord (excess trunc inv : Bool) : BitVec 3 :=
  placeBits 3 0 (BitVec.ofBool inv) ||| placeBits 3 1 (BitVec.ofBool trunc) ||| placeBits 3 2 (BitVec.ofBool excess)

/-- `FLAGS[0]`, INV (R21). -/
def State.inv (s : State) : Bool := s.flags.getLsbD 0

/-- `FLAGS[1]`, TRUNC (R21). -/
def State.trunc (s : State) : Bool := s.flags.getLsbD 1

/-- `FLAGS[2]`, EXCESS (R21). -/
def State.excess (s : State) : Bool := s.flags.getLsbD 2

/-- FLAGS of HEXDEC on the characters `f` (R75). -/
def hexdecFlags (f : List Byte) : BitVec 3 := flagsWord false false (fieldMask f != 0)

/-- `c` of R76: how many complete width-`w` fields of the `n` asked for a payload of length `len` holds. -/
def completeFields (n w len : Nat) : Nat := min n (len / w)

/-- `inv` of R76: some character of a complete field is not a hex character. -/
def someFieldInvalid (n w : Nat) (p : List Byte) : Bool :=
  (List.range (completeFields n w p.length)).any fun k => fieldMask (fieldAt w k p) != 0

/-- `trunc` of R76. -/
def payloadShort (n w len : Nat) : Bool := len < n * w

/-- `excess` of R76. -/
def payloadLong (n w len : Nat) : Bool := len > n * w

/-- FLAGS of HEXDECA on the payload `p` (R76). -/
def hexdecaFlags (n w : Nat) (p : List Byte) : BitVec 3 :=
  flagsWord (payloadLong n w p.length) (payloadShort n w p.length) (someFieldInvalid n w p)

/-- The status HEXDEC ends with once its operands are accepted (R75). -/
def hexdecStatus (f : List Byte) : Status := if fieldMask f != 0 then .invalidHex else .ok

/-- The status HEXDECA ends with once its operands are accepted: TRUNCATED wins over INVALID_HEX (R76, R104). -/
def hexdecaStatus (n w : Nat) (p : List Byte) : Status :=
  if payloadShort n w p.length then .truncated
  else if someFieldInvalid n w p then .invalidHex
  else .ok

end Sys2Proof.Machine
end

