-- ==== Sys2Proof/Machine/Ops.lean ====
section
/-! DEFINITION. The named operations over the state that the meanings share: the register writes, the end of an operation
(`status(S)`, spec/00_scope.md R12), the response parser's three functions PINIT, PSTEP and PEND (spec/42_frame_codec.md R89 to
R91), an illegal request (spec/30_encoding.md R56), reset (spec/70_reset_and_hazards.md R114) and the acceptance of the next
input (spec/20_memory.md R48). There is no exception to take and none to return from: "Trap entry and return: none"
(spec/60_exceptions.md R107). -/

namespace Sys2Proof.Machine

/-- What a meaning answers. -/
abbrev Result : Type := Host.Outcome State Fault Refusal

/-! ### Register writes -/

/-- `STATUS <- st`. -/
def State.setStatus (st : Status) (s : State) : State := { s with status := st }

/-- `DOUT_LEN <- n`. -/
def State.setDoutLen (n : Nat) (s : State) : State := { s with doutLen := n }

/-- `new` over the leading bytes of a byte register, the bytes after it as they were (R22). -/
def overlay (new old : List Byte) : List Byte := new ++ old.drop new.length

/-- `DOUT_BYTES[0 .. n-1] <- f ; DOUT_LEN <- n` for a string `f` of length `n` (R22, R74, R88). -/
def State.latchBytes (f : List Byte) (s : State) : State :=
  { s with doutBytes := overlay f s.doutBytes, doutLen := f.length }

/-- `DOUT_VAL <- v` (R22). -/
def State.latchValue (v : Value) (s : State) : State := { s with doutVal := v }

/-- HEXDEC's results: `DOUT_VAL`, `DOUT_MASK` and `FLAGS` of the field `f` (R75). -/
def State.latchField (f : List Byte) (s : State) : State :=
  { s with
    doutVal := BitVec.ofNat 32 (fieldValue f)
    doutMask := BitVec.ofNat 8 (fieldMask f)
    flags := hexdecFlags f }

/-- HEXDECA's results: all 16 entries of `DOUT_VALS` and `DOUT_MASKS`, `DOUT_NVALID` and `FLAGS` (R23, R76). -/
def State.latchFields (n w : Nat) (p : List Byte) (s : State) : State :=
  { s with
    doutVals := Vector.ofFn fun k =>
      if k.val < completeFields n w p.length then BitVec.ofNat 32 (fieldValue (fieldAt w k.val p)) else 0
    doutMasks := Vector.ofFn fun k =>
      if k.val < completeFields n w p.length then BitVec.ofNat 8 (fieldMask (fieldAt w k.val p)) else 0
    doutNvalid := completeFields n w p.length
    flags := hexdecaFlags n w p }

/-- `DOUT_CFG <- c` (R24). -/
def State.latchConfig (c : ChannelConfig) (s : State) : State := { s with doutCfg := c }

/-- `DOUT_ADDR <- a ; DOUT_HI <- hi` (R24). -/
def State.latchAddress (a : BitVec 7) (hi : Bool) (s : State) : State := { s with doutAddr := a, doutHi := hi }

/-- `TARGET <- a` (R25). -/
def State.setTarget (a : BitVec 7) (s : State) : State := { s with target := a }

/-- The parser's registers after a parser function. -/
def State.setParser (p : Parser) (s : State) : State := { s with parser := p }

/-- `status(S)`: write `STATUS` and end the operation (R12). -/
def finish (st : Status) (s : State) : Result := .next (s.setStatus st)

/-! ### The response parser -/

/-- `PINIT`; `PBUF` is not cleared (R89). -/
def pinit (p : Parser) : Parser :=
  { p with pst := .scan, pclass := .pending, preason := .none, pcode := 0x00, prsn := 0x00, pterm := false, plen := 0 }

/-- `PSTEP(b)` in state SCAN (R90). -/
def pstepScan (b : Byte) (p : Parser) : Parser :=
  if b = ackByte then { p with pst := .ackp }
  else if b = nakByte then { p with pst := .nak1 }
  else p

/-- `PSTEP(b)` in state ACKP (R90). -/
def pstepAckp (maxPayload : Nat) (b : Byte) (p : Parser) : Parser :=
  if isTerm b then { p with pterm := true, pclass := .ack, pst := .done }
  else if p.plen = maxPayload then { p with pclass := .payloadOverflow, pst := .done }
  else { p with pbuf := p.pbuf.set p.plen b, plen := p.plen + 1 }

/-- `PSTEP(b)` in state NAK1 (R90). -/
def pstepNak1 (b : Byte) (p : Parser) : Parser :=
  if b = 0x31#8 then { p with pcode := b, pclass := .nakNotRecognized, pst := .nakt }
  else if b = 0x32#8 then { p with pcode := b, pclass := .nakTooLong, pst := .nakt }
  else if b = 0x33#8 then { p with pcode := b, pst := .nak2 }
  else if isTerm b then { p with pcode := b, pclass := .malformedNak, pterm := true, pst := .done }
  else { p with pcode := b, pclass := .malformedNak, pst := .nakt }

/-- `PSTEP(b)` in state NAK2 (R90). -/
def pstepNak2 (b : Byte) (p : Parser) : Parser :=
  if isTerm b then { p with prsn := b, pclass := .malformedNak, pterm := true, pst := .done }
  else if isReasonByte b then { p with prsn := b, pclass := .nakFailed, preason := reasonOf b, pst := .nakt }
  else { p with prsn := b, pclass := .nakUnknownReason, pst := .nakt }

/-- `PSTEP(b)` in state NAKT (R90). -/
def pstepNakt (b : Byte) (p : Parser) : Parser := { p with pterm := isTerm b, pst := .done }

/-- `PSTEP(b)`: the parser takes one byte of the response (R90). -/
def pstep (maxPayload : Nat) (p : Parser) (b : Byte) : Parser :=
  match p.pst with
  | .scan => pstepScan b p
  | .ackp => pstepAckp maxPayload b p
  | .nak1 => pstepNak1 b p
  | .nak2 => pstepNak2 b p
  | .nakt => pstepNakt b p
  | .done => p

/-- The class `PEND` gives in each parser state; none where it leaves `PCLASS` unchanged (R91). -/
def pendClass : ParserState → Option ParserClass
  | .scan => some .noResponse
  | .ackp => some .ack
  | .nak1 => some .malformedNak
  | .nak2 => some .malformedNak
  | .nakt => none
  | .done => none

/-- `PEND`: the end of the input (R91). -/
def pend (p : Parser) : Parser := { p with pclass := (pendClass p.pst).getD p.pclass, pst := .done }

/-- `PINIT`, then `PSTEP` for each byte in index order, then `PEND` (R96). -/
def parseBytes (maxPayload : Nat) (bytes : List Byte) (p : Parser) : Parser :=
  pend (bytes.foldl (pstep maxPayload) (pinit p))

/-! ### Requests and reset -/

/-- An illegal request: `STATUS <- ILLEGAL_OP` and nothing else (R56). -/
def illegalRequest (s : State) : Result := finish .illegalOp s

/-- The block takes the next input: its ports are presented, and it is no longer to come (R48). -/
def State.present (din : Ports) (rest : List Event) (s : State) : State := { s with din := din, pending := rest }

/-- Reset: every register at its reset value (R37, R114); the build parameters, the ports and the inputs to come are not
registers and stay. -/
def State.resetRegisters (rest : List Event) (s : State) : State :=
  { State.resetOf s.params with din := s.din, pending := rest }

end Sys2Proof.Machine
end

