-- ==== Sys2Proof/Machine/ChannelConfig.lean ====
section
/-! DEFINITION. The channel configuration codec operations (spec/41_channel_config.md): CFGDEC (R81), CFGENC (R82). -/

namespace Sys2Proof.Machine

/-- CFGDEC (R81). -/
def execCfgdec (s : State) : Result :=
  if !valueFits 16 s.din.val then finish .badOperand s
  else finish .ok (s.latchConfig (decodeConfig s.params.layout (s.din.val.extractLsb' 0 16)))

/-- CFGENC (R82); under `IMPL` there is no encoder (R84). -/
def execCfgenc (s : State) : Result :=
  match s.params.layout with
  | .impl => finish .layoutUnsupported s
  | .icd => finish .ok (s.latchValue ((encodeConfig s.din.cfg).setWidth 32))

end Sys2Proof.Machine
end

