-- ==== Sys2Proof/Machine/FrameCodec.lean ====
section
/-! DEFINITION. The frame codec operations (spec/42_frame_codec.md): SETTGT (R86), ADDRDEC (R87), FRMBLD (R88), PRSTART (R93),
PRBYTE (R94), PREND (R95), PARSE (R96). -/

namespace Sys2Proof.Machine

/-- SETTGT (R86). -/
def execSettgt (s : State) : Result :=
  if !valueFits 7 s.din.val then finish .badOperand s
  else finish .ok (s.setTarget (s.din.val.extractLsb' 0 7))

/-- ADDRDEC (R87). -/
def execAddrdec (s : State) : Result :=
  if !valueFits 8 s.din.val then finish .badOperand s
  else finish .ok (s.latchAddress (s.din.val.extractLsb' 0 7) (s.din.val.getLsbD 7))

/-- FRMBLD (R88). -/
def execFrmbld (select : AddressSelect) (s : State) : Result :=
  if s.din.len > s.params.maxBuf then finish .badOperand s
  else if s.din.len > s.params.maxArgs then finish .bufOverflow (s.setDoutLen 0)
  else finish .ok (s.latchBytes (commandFrame (selectedAddress select s) s.din.mnem s.din.string))

/-- PRSTART (R93). -/
def execPrstart (s : State) : Result := finish .ok (s.setParser (pinit s.parser))

/-- PRBYTE (R94). -/
def execPrbyte (s : State) : Result :=
  if !valueFits 8 s.din.val then finish .badOperand s
  else finish .ok (s.setParser (pstep s.params.maxPayload s.parser (s.din.val.extractLsb' 0 8)))

/-- PREND (R95). -/
def execPrend (s : State) : Result := finish .ok (s.setParser (pend s.parser))

/-- PARSE (R96). -/
def execParse (s : State) : Result :=
  if s.din.len > s.params.maxBuf then finish .badOperand s
  else finish .ok (s.setParser (parseBytes s.params.maxPayload s.din.string s.parser))

end Sys2Proof.Machine
end

