-- ==== Sys2Proof/Machine/HexCodec.lean ====
section
/-! DEFINITION. The hex codec operations (spec/40_hex_codec.md): HEXENC (R74), HEXDEC (R75), HEXDECA (R76). -/

namespace Sys2Proof.Machine

/-- `w` is a legal field width, 1 to `MAX_W` (R6). -/
def widthLegal (w : Nat) : Bool := 1 ≤ w && w ≤ maxW

/-- `n` is a legal field count, 1 to `MAX_N` (R7). -/
def countLegal (n : Nat) : Bool := 1 ≤ n && n ≤ maxN

/-- `v` does not fit in `w` hex digits: `w < 8` and `v >= 2^(4*w)` (R74). -/
def hexTooLarge (w : Nat) (v : Value) : Bool := w < 8 && v.toNat ≥ 2 ^ (4 * w)

/-- The byte-string length of a source is out of range: only a port length can exceed `MAX_BUF` (R76). -/
def sourceTooLong (source : Source) (s : State) : Bool :=
  match source with
  | .ports => s.din.len > s.params.maxBuf
  | .payload => false

/-- HEXENC (R74). -/
def execHexenc (w : Nat) (s : State) : Result :=
  if !widthLegal w then finish .badOperand s
  else if hexTooLarge w s.din.val then finish .hexOverflow (s.setDoutLen 0)
  else finish .ok (s.latchBytes (hexField w s.din.val))

/-- HEXDEC (R75). -/
def execHexdec (source : Source) (s : State) : Result :=
  if !widthLegal (sourceLen source s) then finish .badOperand s
  else finish (hexdecStatus (sourceString source s)) (s.latchField (sourceString source s))

/-- HEXDECA (R76). -/
def execHexdeca (source : Source) (n w : Nat) (s : State) : Result :=
  if !(widthLegal w && countLegal n) then finish .badOperand s
  else if sourceTooLong source s then finish .badOperand s
  else finish (hexdecaStatus n w (sourceString source s)) (s.latchFields n w (sourceString source s))

end Sys2Proof.Machine
end

