-- ==== Sys2Proof/Machine/Dispatch.lean ====
section
/-! DEFINITION. One arm per operation (spec/opcode_table.json). -/

namespace Sys2Proof.Machine

def exec (i : Instr) (s : State) : Host.Outcome State Fault Refusal :=
  match i with
  | .hexenc width => Sys2Proof.Machine.execHexenc width s
  | .hexdec source => Sys2Proof.Machine.execHexdec source s
  | .hexdeca source count width => Sys2Proof.Machine.execHexdeca source count width s
  | .cfgdec => Sys2Proof.Machine.execCfgdec s
  | .cfgenc => Sys2Proof.Machine.execCfgenc s
  | .settgt => Sys2Proof.Machine.execSettgt s
  | .addrdec => Sys2Proof.Machine.execAddrdec s
  | .frmbld select => Sys2Proof.Machine.execFrmbld select s
  | .prstart => Sys2Proof.Machine.execPrstart s
  | .prbyte => Sys2Proof.Machine.execPrbyte s
  | .prend => Sys2Proof.Machine.execPrend s
  | .parse => Sys2Proof.Machine.execParse s

end Sys2Proof.Machine
end

