-- ==== Sys2Proof/Machine/Step.lean ====
section
/-! DEFINITION. One step of the machine: it takes the next input and serves it whole (spec/20_memory.md R47, R48). With nothing
presented it waits, unchanged (spec/70_reset_and_hazards.md R115). The block fetches no instruction (R51): the requester
presents each control word. -/

namespace Sys2Proof.Machine

/-- The request whose control word is `cw`, its ports already presented: one of the twelve operations (R55) or illegal
(R56). -/
def serve (cw : ControlWord) (s : State) : Host.Outcome State Fault Refusal :=
  match decode cw with
  | .ok i => exec i s
  | .error _ => illegalRequest s

/-- One step. -/
def step (s : State) : Host.Outcome State Fault Refusal :=
  match s.pending with
  | [] => .next s
  | .reset :: rest => .next (s.resetRegisters rest)
  | .request cw din :: rest => serve cw (s.present din rest)

/-- The requester presents, before anything else still to come, the request whose control word is the table's word `w`, with
the ports as they stand: the very next step serves exactly it. -/
def State.withFetchWord (s : State) (nbits w : Nat) : State :=
  { s with pending := .request (tableWord nbits w) s.din :: s.pending }

end Sys2Proof.Machine
end

