-- ==== Sys2Proof/Safety.lean ====
section
/-! DEFINITION. The terms claims use: the reset values (spec/10_state.md R37), the invariant every run keeps (R22, R23, R27 to
R32; spec/60_exceptions.md R103), the hex alphabet as spec/30_encoding.md R58 writes it, which ports an operation reads
(R19), which statuses it can write (R101), and the byte-at-a-time form of PARSE (spec/42_frame_codec.md R96). -/

namespace Sys2Proof.Machine

/-! ### Reset -/

/-- Every register holds the value of R37's table, read as the number the requester sees. -/
def State.AtReset (s : State) : Prop :=
  s.status.code = 0 ∧ s.flags = 0 ∧ s.doutVal = 0 ∧ s.doutLen = 0
    ∧ s.doutBytes.length = s.params.maxBuf ∧ (∀ b ∈ s.doutBytes, b = 0x00#8)
    ∧ s.doutMask = 0 ∧ (∀ k : Fin maxN, s.doutVals[k] = 0 ∧ s.doutMasks[k] = 0) ∧ s.doutNvalid = 0
    ∧ (s.doutCfg.lp = false ∧ s.doutCfg.son = false ∧ s.doutCfg.hp = false ∧ s.doutCfg.a1 = 0 ∧ s.doutCfg.a2 = 0
      ∧ s.doutCfg.dc = false)
    ∧ s.doutAddr = 0 ∧ s.doutHi = false ∧ s.target = 0
    ∧ s.parser.pst.code = 0 ∧ s.parser.pclass.code = 0 ∧ s.parser.preason.code = 0 ∧ s.parser.pcode = 0x00#8
    ∧ s.parser.prsn = 0x00#8 ∧ s.parser.pterm = false ∧ s.parser.plen = 0
    ∧ s.parser.pbuf.length = s.params.maxPayload ∧ (∀ b ∈ s.parser.pbuf, b = 0x00#8)

/-! ### The invariant -/

/-- No NAK byte and no terminator has been recorded (R29 to R31). -/
def Parser.NothingRecorded (p : Parser) : Prop :=
  p.preason = .none ∧ p.pcode = 0x00#8 ∧ p.prsn = 0x00#8 ∧ p.pterm = false

/-- `PREASON`, `PCODE` and `PRSN` of a NAK verdict, class by class (R68, R69, R103). -/
def Parser.NakVerdict (p : Parser) : Prop :=
  match p.pclass with
  | .nakNotRecognized => p.preason = .none ∧ p.pcode = 0x31#8 ∧ p.prsn = 0x00#8
  | .nakTooLong => p.preason = .none ∧ p.pcode = 0x32#8 ∧ p.prsn = 0x00#8
  | .nakFailed =>
    p.pcode = 0x33#8 ∧ 1 ≤ p.preason.code.toNat ∧ p.preason.code.toNat ≤ 4 ∧ p.prsn.toNat = 0x30 + p.preason.code.toNat
  | .nakUnknownReason =>
    p.preason = .none ∧ p.pcode = 0x33#8 ∧ p.prsn ≠ crByte ∧ p.prsn ≠ lfByte
      ∧ (p.prsn.toNat < 0x31 ∨ 0x34 < p.prsn.toNat)
  | .malformedNak =>
    p.preason = .none ∧ p.pcode ≠ 0x31#8 ∧ p.pcode ≠ 0x32#8
      ∧ (p.prsn = 0x00#8 ∨ (p.pcode = 0x33#8 ∧ (p.prsn = crByte ∨ p.prsn = lfByte)))
  | .pending => False
  | .ack => False
  | .noResponse => False
  | .payloadOverflow => False

/-- What the parser's registers hold once the frame is classified and its end is seen (R103). -/
def Parser.FinalVerdict (maxPayload : Nat) (p : Parser) : Prop :=
  match p.pclass with
  | .pending => False
  | .ack => p.preason = .none ∧ p.pcode = 0x00#8 ∧ p.prsn = 0x00#8
  | .noResponse => p.NothingRecorded ∧ p.plen = 0
  | .payloadOverflow => p.NothingRecorded ∧ p.plen = maxPayload
  | .nakNotRecognized => p.NakVerdict ∧ p.plen = 0
  | .nakTooLong => p.NakVerdict ∧ p.plen = 0
  | .nakFailed => p.NakVerdict ∧ p.plen = 0
  | .nakUnknownReason => p.NakVerdict ∧ p.plen = 0
  | .malformedNak => p.NakVerdict ∧ p.plen = 0

/-- The parser's registers fit together: the buffer has its size, the length fits it, and `PCLASS`, `PREASON`, `PCODE`,
`PRSN` and `PTERM` are what R27 to R32 and R103 say for the state `PST` is in. -/
def Parser.Consistent (maxPayload : Nat) (p : Parser) : Prop :=
  p.pbuf.length = maxPayload ∧ p.plen ≤ maxPayload ∧
    match p.pst with
    | .scan => p.pclass = .pending ∧ p.NothingRecorded ∧ p.plen = 0
    | .ackp => p.pclass = .pending ∧ p.NothingRecorded
    | .nak1 => p.pclass = .pending ∧ p.NothingRecorded ∧ p.plen = 0
    | .nak2 =>
      p.pclass = .pending ∧ p.preason = .none ∧ p.pcode = 0x33#8 ∧ p.prsn = 0x00#8 ∧ p.pterm = false ∧ p.plen = 0
    | .nakt => p.NakVerdict ∧ p.pterm = false ∧ p.plen = 0
    | .done => p.FinalVerdict maxPayload

/-- The invariant of a run: the instance has the sizes R8 asks for, the byte register has its size and its length fits it
(R22), the entries of the array results at and above `DOUT_NVALID` are 0 (R23, R76), and the parser is consistent. -/
def State.Inv (s : State) : Prop :=
  s.params.Sizes
    ∧ s.doutBytes.length = s.params.maxBuf ∧ s.doutLen ≤ s.params.maxBuf
    ∧ s.doutNvalid ≤ maxN ∧ (∀ k : Fin maxN, s.doutNvalid ≤ k.val → s.doutVals[k] = 0 ∧ s.doutMasks[k] = 0)
    ∧ s.parser.Consistent s.params.maxPayload

/-! ### Hex characters -/

/-- The hex alphabet `0123456789ABCDEF` (R10, R58), digit `d` at index `d`. -/
def hexAlphabet : List Byte :=
  [0x30#8, 0x31#8, 0x32#8, 0x33#8, 0x34#8, 0x35#8, 0x36#8, 0x37#8, 0x38#8, 0x39#8, 0x41#8, 0x42#8, 0x43#8, 0x44#8,
    0x45#8, 0x46#8]

/-- The digit a character stands for, its index in the alphabet; 0 for a character outside it, which is the spec's own choice
(R73, notes/assumptions/5.md). -/
def charDigit (b : Byte) : Nat := if b ∈ hexAlphabet then hexAlphabet.idxOf b else 0

/-- Character `i` of the source HEXDEC or HEXDECA reads (R75, R76). -/
def sourceChar (source : Source) (s : State) (i : Nat) : Byte :=
  match source with
  | .ports => s.din.bytes.getD i 0x00#8
  | .payload => s.parser.pbuf.getD i 0x00#8

/-! ### What an operation reads and what it can answer -/

/-- The operation reads `DIN_VAL` (R19). -/
def readsVal : Instr → Bool
  | .hexenc _ | .cfgdec | .settgt | .addrdec | .prbyte => true
  | .hexdec _ | .hexdeca _ _ _ | .cfgenc | .frmbld _ | .prstart | .prend | .parse => false

/-- The operation reads `DIN_LEN` and `DIN_BYTES` (R19); HEXDEC and HEXDECA only with `S = 0` (R53). -/
def readsString : Instr → Bool
  | .hexdec source => source = .ports
  | .hexdeca source _ _ => source = .ports
  | .frmbld _ | .parse => true
  | .hexenc _ | .cfgdec | .cfgenc | .settgt | .addrdec | .prstart | .prbyte | .prend => false

/-- The operation reads `DIN_MNEM` (R19). -/
def readsMnem : Instr → Bool
  | .frmbld _ => true
  | .hexenc _ | .hexdec _ | .hexdeca _ _ _ | .cfgdec | .cfgenc | .settgt | .addrdec | .prstart | .prbyte | .prend
  | .parse => false

/-- The operation reads `DIN_CFG` (R19). -/
def readsCfg : Instr → Bool
  | .cfgenc => true
  | .hexenc _ | .hexdec _ | .hexdeca _ _ _ | .cfgdec | .settgt | .addrdec | .frmbld _ | .prstart | .prbyte | .prend
  | .parse => false

/-- Two values of the ports agree on what the operation reads: of `DIN_BYTES`, only the bytes below `DIN_LEN` (R19). -/
def SameReadPorts (i : Instr) (d e : Ports) : Prop :=
  (readsVal i = true → d.val = e.val)
    ∧ (readsString i = true →
      d.len = e.len ∧ ∀ k, k < d.len → d.bytes.getD k 0x00#8 = e.bytes.getD k 0x00#8)
    ∧ (readsMnem i = true → d.mnem = e.mnem)
    ∧ (readsCfg i = true → d.cfg = e.cfg)

/-- The statuses an operation can write (R101, column "written by", less ILLEGAL_OP, which no operation writes). -/
def statusesOf : Instr → List Status
  | .hexenc _ => [.ok, .badOperand, .hexOverflow]
  | .hexdec _ => [.ok, .badOperand, .invalidHex]
  | .hexdeca _ _ _ => [.ok, .badOperand, .truncated, .invalidHex]
  | .cfgdec => [.ok, .badOperand]
  | .cfgenc => [.ok, .layoutUnsupported]
  | .settgt => [.ok, .badOperand]
  | .addrdec => [.ok, .badOperand]
  | .frmbld _ => [.ok, .badOperand, .bufOverflow]
  | .prstart => [.ok]
  | .prbyte => [.ok, .badOperand]
  | .prend => [.ok]
  | .parse => [.ok, .badOperand]

/-! ### The response parser byte by byte -/

/-- A CR or an LF (R65). -/
abbrev Terminator (b : Byte) : Prop := b = 0x0D#8 ∨ b = 0x0A#8

/-- The byte string begins with a terminator. -/
def StartsWithTerminator (bytes : List Byte) : Prop :=
  ∃ b rest, bytes = b :: rest ∧ Terminator b

/-- The requests of the byte-at-a-time form of PARSE (R96): PRSTART, PRBYTE for each byte in order, PREND, each with its
control word (R55). -/
def streamRequests (din : Ports) : List Event :=
  .request 0x0009#16 din
    :: (din.string.map fun b => .request 0x000A#16 { din with val := b.setWidth 32 })
    ++ [.request 0x000B#16 din]

end Sys2Proof.Machine
end

