-- ==== Sys2Proof/Certificates/Slice0/Obligations.lean ====
section
/-! DEFINITION. The statements for the provers, from the numbered rules of spec/. Every statement about an operation names the
registers it may change by a record update of the state before it, so it states that operation's frame: whatever the update
does not name is unchanged. The block has no memory (R38) and no program counter (R35). -/

open Sys2Proof Sys2Proof.Machine

/-! ### Encodings -/

/-- R53, R55: decoding the encoding of a well-formed instruction gives it back, with every operand at every value its field
admits. -/
def Obligations.DecodeEncodeRoundTrip : Prop :=
  ∀ i : Instr, WellFormed i → decode (encode i) = .ok i

/-- R53 to R55: a word that decodes gives a well-formed instruction whose encoding is the word's used bits. -/
def Obligations.EncodeKeepsUsedBits : Prop :=
  ∀ (cw : ControlWord) (i : Instr), decode cw = .ok i → WellFormed i ∧ encode i = cw &&& i.usedBits

/-- R54: two words that agree on the fields the operation uses are the same request, whatever the ignored fields hold. -/
def Obligations.IgnoredFieldsChangeNothing : Prop :=
  ∀ (cw cw' : ControlWord) (i : Instr) (s : State) (din : Ports) (rest : List Event),
    decode cw = .ok i → cw' &&& i.usedBits = cw &&& i.usedBits →
      decode cw' = .ok i
        ∧ step { s with pending := .request cw' din :: rest } = step { s with pending := .request cw din :: rest }

/-- R55, with the field positions of R53: a word selects an operation when its `OP` bits and its bit 15 match, and `W`, `N`,
`B` and `S` are read at bits 7:4, 12:8, 13 and 14 as unsigned numbers. -/
def Obligations.OperationSelectedByMatchAndMask : Prop :=
  ∀ cw : ControlWord,
    let w := cw.toNat / 2 ^ 4 % 2 ^ 4
    let n := cw.toNat / 2 ^ 8 % 2 ^ 5
    let b := if cw.toNat / 2 ^ 13 % 2 = 1 then AddressSelect.broadcast else AddressSelect.target
    let src := if cw.toNat / 2 ^ 14 % 2 = 1 then Source.payload else Source.ports
    (decode cw = .ok (.hexenc w) ↔ cw &&& 0x800F#16 = 0x0001#16)
      ∧ (decode cw = .ok (.hexdec src) ↔ cw &&& 0x800F#16 = 0x0002#16)
      ∧ (decode cw = .ok (.hexdeca src n w) ↔ cw &&& 0x800F#16 = 0x0003#16)
      ∧ (decode cw = .ok .cfgdec ↔ cw &&& 0x800F#16 = 0x0004#16)
      ∧ (decode cw = .ok .cfgenc ↔ cw &&& 0x800F#16 = 0x0005#16)
      ∧ (decode cw = .ok .settgt ↔ cw &&& 0x800F#16 = 0x0006#16)
      ∧ (decode cw = .ok .addrdec ↔ cw &&& 0x800F#16 = 0x0007#16)
      ∧ (decode cw = .ok (.frmbld b) ↔ cw &&& 0x800F#16 = 0x0008#16)
      ∧ (decode cw = .ok .prstart ↔ cw &&& 0x800F#16 = 0x0009#16)
      ∧ (decode cw = .ok .prbyte ↔ cw &&& 0x800F#16 = 0x000A#16)
      ∧ (decode cw = .ok .prend ↔ cw &&& 0x800F#16 = 0x000B#16)
      ∧ (decode cw = .ok .parse ↔ cw &&& 0x800F#16 = 0x000C#16)

/-- R56: an illegal request writes ILLEGAL_OP and changes no other register; every other word is an operation. -/
def Obligations.IllegalRequestWritesOnlyStatus : Prop :=
  ∀ (cw : ControlWord) (s : State) (din : Ports) (rest : List Event),
    let op := cw.toNat % 16
    ((op = 0 ∨ op = 13 ∨ op = 14 ∨ op = 15 ∨ cw.getLsbD 15 = true) →
      s.pending = .request cw din :: rest →
        step s = .next { s with din := din, pending := rest, status := .illegalOp })
      ∧ (¬(op = 0 ∨ op = 13 ∨ op = 14 ∨ op = 15 ∨ cw.getLsbD 15 = true) → ∃ i, decode cw = .ok i)

/-- R55, R56, on words of spec/95_test_vectors.md section 6. -/
def Obligations.SampleWordsDecode : Prop :=
  decode 0x0041#16 = .ok (.hexenc 4) ∧ decode 0x4041#16 = .ok (.hexenc 4)
    ∧ decode 0x5043#16 = .ok (.hexdeca .payload 16 4) ∧ decode 0x2008#16 = .ok (.frmbld .broadcast)
    ∧ decode 0x0F0C#16 = .ok .parse ∧ decode 0x000D#16 = .error (.reservedOp 0xD#4)
    ∧ decode 0x800C#16 = .error .reservedBit

/-- R20, R27 to R29, R101, R103: the numbers a requester reads. -/
def Obligations.RegisterCodesAsTabled : Prop :=
  [Status.ok, .hexOverflow, .invalidHex, .truncated, .badOperand, .bufOverflow, .illegalOp, .layoutUnsupported].map
      (fun x => x.code.toNat) = List.range 8
    ∧ [ParserState.scan, .ackp, .nak1, .nak2, .nakt, .done].map (fun x => x.code.toNat) = List.range 6
    ∧ [ParserClass.pending, .ack, .nakNotRecognized, .nakTooLong, .nakFailed, .nakUnknownReason, .malformedNak,
        .noResponse, .payloadOverflow].map (fun x => x.code.toNat) = List.range 9
    ∧ [NakReason.none, .invalidArgument, .channelOutOfRange, .i2cTimeout, .i2cNack].map (fun x => x.code.toNat)
      = List.range 5

/-! ### The step -/

/-- R47, R48: when a request is presented and its word decodes to `i`, the step is `exec i` on the state with that request's
ports presented and the request no longer to come; nothing else is done around it. -/
def Obligations.StepRunsDecodedRequest : Prop :=
  ∀ (s : State) (cw : ControlWord) (din : Ports) (rest : List Event) (i : Instr),
    s.pending = .request cw din :: rest → decode cw = .ok i →
      step s = exec i { s with din := din, pending := rest }

/-- R115: with nothing presented the block waits, its state unchanged, after reset as at any other time. That waiting is a
step of its own is the model's choice (notes/assumptions/3.md). -/
def Obligations.WaitsForRequest : Prop :=
  (∀ s : State, s.pending = [] → step s = .next s) ∧ State.reset.pending = []

/-- R37, R8, R9: the registers right after reset, and this hardware's parameters. The reset values are the spec's own choice,
"every entry is the spec's own choice" (notes/assumptions/6.md); that the parameters stand in State is the model's choice
(notes/assumptions/1.md). -/
def Obligations.ResetRegisterValues : Prop :=
  State.reset.AtReset ∧ State.reset.params = { layout := .icd, maxArgs := 64, maxPayload := 128, maxBuf := 256 }

/-- R114: on the reset signal every register takes its value of R37, whatever it held; the build parameters are fixed, and the
inputs still to come are served after it. That reset arrives as an input of the model is the model's choice
(notes/assumptions/3.md), and the values of R37 are the spec's own (notes/assumptions/6.md). -/
def Obligations.ResetSignalResetsEveryRegister : Prop :=
  ∀ (s : State) (rest : List Event), s.pending = .reset :: rest →
    ∃ t, step s = .next t ∧ t.AtReset ∧ t.params = s.params ∧ t.din = s.din ∧ t.pending = rest

/-- R100, R125: no step stops, and a run of all that is presented completes with every input served. -/
def Obligations.EveryRunCompletes : Prop :=
  ∀ s : State,
    (∃ t, step s = .next t ∧ t.pending = s.pending.tail)
      ∧ ∃ t, Sys2Proof.core.run s.pending.length s = .next t ∧ t.pending = []

/-- The invariant of Safety.lean holds right after reset. The reset values are the spec's own choice
(notes/assumptions/6.md); that the parameters stand in State is the model's (notes/assumptions/1.md). -/
def Obligations.InvariantAtReset : Prop := State.reset.Inv

/-- R22, R23, R27 to R32, R103: from every state that meets the invariant, a step gives a state that meets it. -/
def Obligations.StepKeepsInvariant : Prop :=
  ∀ s t : State, s.Inv → step s = .next t → t.Inv

/-! ### Rules over all operations -/

/-- R101: with status BAD_OPERAND, ILLEGAL_OP or LAYOUT_UNSUPPORTED no register but `STATUS` changes. -/
def Obligations.RefusalChangesOnlyStatus : Prop :=
  ∀ (i : Instr) (s t : State), exec i s = .next t →
    (t.status = .badOperand ∨ t.status = .illegalOp ∨ t.status = .layoutUnsupported) →
      t = { s with status := t.status }

/-- R101, columns "code" and "written by": the statuses each operation can write. -/
def Obligations.StatusesOfEachOperation : Prop :=
  ∀ (i : Instr) (s t : State), exec i s = .next t → t.status ∈ statusesOf i

/-- R21 to R25, R33: each register is written only by the operations the tables name, and the ports, the build parameters and
the inputs to come by none (R17, R26). -/
def Obligations.RegistersWrittenOnlyByTheirOperations : Prop :=
  ∀ (i : Instr) (s t : State), exec i s = .next t →
    (t.flags = s.flags ∨ (∃ src, i = .hexdec src) ∨ ∃ src n w, i = .hexdeca src n w)
      ∧ (t.doutVal = s.doutVal ∨ (∃ src, i = .hexdec src) ∨ i = .cfgenc)
      ∧ ((t.doutLen = s.doutLen ∧ t.doutBytes = s.doutBytes) ∨ (∃ w, i = .hexenc w) ∨ ∃ sel, i = .frmbld sel)
      ∧ (t.doutMask = s.doutMask ∨ ∃ src, i = .hexdec src)
      ∧ ((t.doutVals = s.doutVals ∧ t.doutMasks = s.doutMasks ∧ t.doutNvalid = s.doutNvalid)
        ∨ ∃ src n w, i = .hexdeca src n w)
      ∧ (t.doutCfg = s.doutCfg ∨ i = .cfgdec)
      ∧ ((t.doutAddr = s.doutAddr ∧ t.doutHi = s.doutHi) ∨ i = .addrdec)
      ∧ (t.target = s.target ∨ i = .settgt)
      ∧ (t.parser = s.parser ∨ i = .prstart ∨ i = .prbyte ∨ i = .prend ∨ i = .parse)
      ∧ t.params = s.params ∧ t.din = s.din ∧ t.pending = s.pending

/-- R19: an operation reads only the ports that name it, and of `DIN_BYTES` only the bytes below `DIN_LEN`. -/
def Obligations.OnlyNamedPortsAreRead : Prop :=
  ∀ (i : Instr) (s : State) (d : Ports), SameReadPorts i s.din d →
    ∃ t, exec i s = .next t ∧ exec i { s with din := d } = .next { t with din := d }

/-! ### The hex codec -/

/-- R74, with the alphabet of R58: HEXENC's refusals, and the field it writes, character `i` the digit of weight
`16^(w-1-i)`; `DOUT_BYTES` from index `w` on is as it was. Those bytes hold no meaning (R22; U11: any value); that they are
as they were is notes/assumptions/7.md. -/
def Obligations.HexencResult : Prop :=
  ∀ (w : Nat) (s : State),
    ((w < 1 ∨ 8 < w) → exec (.hexenc w) s = .next { s with status := .badOperand })
      ∧ (1 ≤ w → w ≤ 8 → 16 ^ w ≤ s.din.val.toNat →
        exec (.hexenc w) s = .next { s with doutLen := 0, status := .hexOverflow })
      ∧ (1 ≤ w → w ≤ 8 → s.din.val.toNat < 16 ^ w →
        ∃ t, exec (.hexenc w) s = .next t
          ∧ t = { s with doutBytes := t.doutBytes, doutLen := w, status := .ok }
          ∧ (∀ i, i < w → t.doutBytes[i]? = hexAlphabet[s.din.val.toNat / 16 ^ (w - 1 - i) % 16]?)
          ∧ ∀ i, w ≤ i → t.doutBytes[i]? = s.doutBytes[i]?)

/-- R75, R72: HEXDEC's refusal, and its value, mask, flags and status. That a character outside the alphabet counts as digit 0
is the spec's own choice: "the 0 is this spec's choice" (R73, notes/assumptions/5.md). -/
def Obligations.HexdecResult : Prop :=
  ∀ (src : Source) (s : State),
    let n := sourceLen src s
    let c := sourceChar src s
    ((n < 1 ∨ 8 < n) → exec (.hexdec src) s = .next { s with status := .badOperand })
      ∧ (1 ≤ n → n ≤ 8 →
        ∃ t, exec (.hexdec src) s = .next t
          ∧ t = { s with doutVal := t.doutVal, doutMask := t.doutMask, flags := t.flags, status := t.status }
          ∧ t.doutVal.toNat = ∑ i ∈ Finset.range n, charDigit (c i) * 16 ^ (n - 1 - i)
          ∧ (∀ i, t.doutMask.getLsbD i = true ↔ i < n ∧ c i ∉ hexAlphabet)
          ∧ (t.flags.getLsbD 0 = true ↔ ∃ i, i < n ∧ c i ∉ hexAlphabet)
          ∧ t.flags.getLsbD 1 = false ∧ t.flags.getLsbD 2 = false
          ∧ ((∃ i, i < n ∧ c i ∉ hexAlphabet) → t.status = .invalidHex)
          ∧ ((∀ i, i < n → c i ∈ hexAlphabet) → t.status = .ok))

/-- R76, R104: HEXDECA's refusals; the complete fields it decodes, the entries it does not decode, the count, the three flags
and the status with its priority. The digit of a character outside the alphabet is the spec's own choice (R73,
notes/assumptions/5.md). -/
def Obligations.HexdecaResult : Prop :=
  ∀ (src : Source) (n w : Nat) (s : State),
    let len := sourceLen src s
    let c := min n (len / w)
    let char := sourceChar src s
    ((w < 1 ∨ 8 < w ∨ n < 1 ∨ 16 < n ∨ (src = .ports ∧ s.params.maxBuf < len)) →
      exec (.hexdeca src n w) s = .next { s with status := .badOperand })
      ∧ (1 ≤ w → w ≤ 8 → 1 ≤ n → n ≤ 16 → (src = .ports → len ≤ s.params.maxBuf) →
        ∃ t, exec (.hexdeca src n w) s = .next t
          ∧ t = { s with doutVals := t.doutVals, doutMasks := t.doutMasks, doutNvalid := c, flags := t.flags,
                         status := t.status }
          ∧ (∀ k : Fin maxN, k.val < c →
            t.doutVals[k].toNat = ∑ i ∈ Finset.range w, charDigit (char (k.val * w + i)) * 16 ^ (w - 1 - i)
              ∧ ∀ i, t.doutMasks[k].getLsbD i = true ↔ i < w ∧ char (k.val * w + i) ∉ hexAlphabet)
          ∧ (∀ k : Fin maxN, c ≤ k.val → t.doutVals[k] = 0 ∧ t.doutMasks[k] = 0)
          ∧ (t.flags.getLsbD 0 = true ↔ ∃ i, i < c * w ∧ char i ∉ hexAlphabet)
          ∧ (t.flags.getLsbD 1 = true ↔ len < n * w)
          ∧ (t.flags.getLsbD 2 = true ↔ n * w < len)
          ∧ (len < n * w → t.status = .truncated)
          ∧ (n * w ≤ len → (∃ i, i < n * w ∧ char i ∉ hexAlphabet) → t.status = .invalidHex)
          ∧ (n * w ≤ len → (∀ i, i < n * w → char i ∈ hexAlphabet) → t.status = .ok))

/-- R78: HEXENC of a value that fits, then HEXDEC of the field it wrote, gives the value back with no invalid character. -/
def Obligations.HexRoundTrip : Prop :=
  ∀ (w : Nat) (s : State), 1 ≤ w → w ≤ 8 → s.din.val.toNat < 16 ^ w →
    ∃ t u, exec (.hexenc w) s = .next t
      ∧ exec (.hexdec .ports) { t with din := { t.din with len := t.doutLen, bytes := t.doutBytes } } = .next u
      ∧ u.doutVal = s.din.val ∧ u.doutMask = 0 ∧ u.status = .ok

/-- R79: two fields of one width that HEXDEC accepts with no invalid character and that have one value are one string, and
such a field holds no lower-case letter. -/
def Obligations.ValidFieldsAreInjective : Prop :=
  ∀ s₁ s₂ t₁ t₂ : State,
    exec (.hexdec .ports) s₁ = .next t₁ → exec (.hexdec .ports) s₂ = .next t₂ → t₁.status = .ok → t₂.status = .ok →
      (s₁.din.len = s₂.din.len → t₁.doutVal = t₂.doutVal →
        ∀ i, i < s₁.din.len → s₁.din.bytes.getD i 0x00#8 = s₂.din.bytes.getD i 0x00#8)
        ∧ ∀ i, i < s₁.din.len →
          ¬(0x61 ≤ (s₁.din.bytes.getD i 0x00#8).toNat ∧ (s₁.din.bytes.getD i 0x00#8).toNat ≤ 0x66)

/-- R76, its corner case `N = 1`: on a payload of one field, HEXDECA finds what HEXDEC finds. -/
def Obligations.SingleFieldHexdecaAgreesWithHexdec : Prop :=
  ∀ (src : Source) (s : State), 1 ≤ sourceLen src s → sourceLen src s ≤ 8 →
    (src = .ports → sourceLen src s ≤ s.params.maxBuf) →
      ∃ t u, exec (.hexdeca src 1 (sourceLen src s)) s = .next t ∧ exec (.hexdec src) s = .next u
        ∧ t.doutVals[0]? = some u.doutVal ∧ t.doutMasks[0]? = some u.doutMask ∧ t.flags = u.flags
        ∧ t.status = u.status ∧ t.doutNvalid = 1

/-- spec/92_eei_decisions.md D9: HEXDEC and HEXDECA with `S = 1` do what they do with `S = 0` and the payload copied to the
ports. -/
def Obligations.PayloadSourceEqualsCopiedPayload : Prop :=
  ∀ s : State, s.parser.plen ≤ s.params.maxBuf →
    let d : Ports := { s.din with len := s.parser.plen, bytes := s.parser.pbuf }
    (∃ t, exec (.hexdec .payload) s = .next t
      ∧ exec (.hexdec .ports) { s with din := d } = .next { t with din := d })
      ∧ ∀ n w, ∃ t, exec (.hexdeca .payload n w) s = .next t
        ∧ exec (.hexdeca .ports n w) { s with din := d } = .next { t with din := d }

/-! ### The channel configuration codec -/

/-- R81, with the layouts of R60 and R61 and the reversal of R62 bit by bit: bit `i` of attenuator 1 is bit `8 - i` of the
word, and bit `i` of attenuator 2 is bit `14 - i` under `ICD`, bit `13 - i` under `IMPL`. -/
def Obligations.CfgdecResult : Prop :=
  ∀ s : State,
    (2 ^ 16 ≤ s.din.val.toNat → exec .cfgdec s = .next { s with status := .badOperand })
      ∧ (s.din.val.toNat < 2 ^ 16 →
        ∃ t, exec .cfgdec s = .next t
          ∧ t = { s with doutCfg := t.doutCfg, status := .ok }
          ∧ t.doutCfg.lp = s.din.val.getLsbD 0
          ∧ (t.doutCfg.son = true ↔ s.din.val.getLsbD 1 = s.din.val.getLsbD 0)
          ∧ t.doutCfg.hp = s.din.val.getLsbD 2
          ∧ (∀ i, i < 6 → t.doutCfg.a1.getLsbD i = s.din.val.getLsbD (8 - i))
          ∧ (s.params.layout = .icd →
            (∀ i, i < 6 → t.doutCfg.a2.getLsbD i = s.din.val.getLsbD (14 - i))
              ∧ t.doutCfg.dc = s.din.val.getLsbD 15)
          ∧ (s.params.layout = .impl →
            (∀ i, i < 6 → t.doutCfg.a2.getLsbD i = s.din.val.getLsbD (13 - i))
              ∧ t.doutCfg.dc = s.din.val.getLsbD 7))

/-- R82, with R60 and R62 bit by bit: CFGENC under `IMPL` is refused; under `ICD` it writes the word, zero-extended. -/
def Obligations.CfgencResult : Prop :=
  ∀ s : State,
    (s.params.layout = .impl → exec .cfgenc s = .next { s with status := .layoutUnsupported })
      ∧ (s.params.layout = .icd →
        ∃ t, exec .cfgenc s = .next t
          ∧ t = { s with doutVal := t.doutVal, status := .ok }
          ∧ t.doutVal.getLsbD 0 = s.din.cfg.lp
          ∧ (t.doutVal.getLsbD 1 = t.doutVal.getLsbD 0 ↔ s.din.cfg.son = true)
          ∧ t.doutVal.getLsbD 2 = s.din.cfg.hp
          ∧ (∀ i, i < 6 → t.doutVal.getLsbD (8 - i) = s.din.cfg.a1.getLsbD i)
          ∧ (∀ i, i < 6 → t.doutVal.getLsbD (14 - i) = s.din.cfg.a2.getLsbD i)
          ∧ t.doutVal.getLsbD 15 = s.din.cfg.dc
          ∧ t.doutVal.toNat < 2 ^ 16)

/-- R83: under `ICD`, decoding then encoding gives every 16-bit word back, and encoding then decoding gives every field
combination back. -/
def Obligations.ConfigRoundTrip : Prop :=
  ∀ s : State, s.params.layout = .icd →
    (s.din.val.toNat < 2 ^ 16 →
      ∃ t u, exec .cfgdec s = .next t
        ∧ exec .cfgenc { t with din := { t.din with cfg := t.doutCfg } } = .next u ∧ u.doutVal = s.din.val)
      ∧ ∃ t u, exec .cfgenc s = .next t
        ∧ exec .cfgdec { t with din := { t.din with val := t.doutVal } } = .next u ∧ u.doutCfg = s.din.cfg

/-- R84: under `IMPL` words that differ only in bits 14 and 15 decode alike, so no encoder is the decoder's inverse, and
CFGENC is refused. -/
def Obligations.ImplLayoutHasNoEncoder : Prop :=
  (∀ s t u : State, s.params.layout = .impl → ∀ v : Value, s.din.val.toNat < 2 ^ 16 → v.toNat < 2 ^ 16 →
    s.din.val.toNat % 2 ^ 14 = v.toNat % 2 ^ 14 →
      exec .cfgdec s = .next t → exec .cfgdec { s with din := { s.din with val := v } } = .next u →
        t.doutCfg = u.doutCfg)
    ∧ (¬∃ enc : ChannelConfig → Value, ∀ s t : State, s.params.layout = .impl → s.din.val.toNat < 2 ^ 16 →
      exec .cfgdec s = .next t → enc t.doutCfg = s.din.val)
    ∧ ∀ s : State, s.params.layout = .impl → exec .cfgenc s = .next { s with status := .layoutUnsupported }

/-! ### Addressing and the command frame builder -/

/-- R86: SETTGT writes `TARGET` from a value below 128 and refuses any other. -/
def Obligations.SettgtResult : Prop :=
  ∀ s : State,
    (128 ≤ s.din.val.toNat → exec .settgt s = .next { s with status := .badOperand })
      ∧ (s.din.val.toNat < 128 →
        ∃ t, exec .settgt s = .next t ∧ t = { s with target := t.target, status := .ok }
          ∧ t.target.toNat = s.din.val.toNat)

/-- R87: ADDRDEC masks the high bit of a byte off and records it, and refuses a value above 0xFF. -/
def Obligations.AddrdecResult : Prop :=
  ∀ s : State,
    (256 ≤ s.din.val.toNat → exec .addrdec s = .next { s with status := .badOperand })
      ∧ (s.din.val.toNat < 256 →
        ∃ t, exec .addrdec s = .next t ∧ t = { s with doutAddr := t.doutAddr, doutHi := t.doutHi, status := .ok }
          ∧ t.doutAddr.toNat = s.din.val.toNat % 128 ∧ (t.doutHi = true ↔ 128 ≤ s.din.val.toNat))

/-- R88, with the frame of R63 byte by byte: FRMBLD's refusals and the frame it writes; `DOUT_BYTES` after the frame is as it
was. Those bytes hold no meaning (R22; U11: any value); that they are as they were is notes/assumptions/7.md. -/
def Obligations.FrmbldResult : Prop :=
  ∀ (sel : AddressSelect) (s : State),
    let len := s.din.len
    let a := match sel with
      | .target => s.target.toNat
      | .broadcast => 0
    (s.params.maxBuf < len → exec (.frmbld sel) s = .next { s with status := .badOperand })
      ∧ (len ≤ s.params.maxBuf → s.params.maxArgs < len →
        exec (.frmbld sel) s = .next { s with doutLen := 0, status := .bufOverflow })
      ∧ (len ≤ s.params.maxBuf → len ≤ s.params.maxArgs →
        ∃ t, exec (.frmbld sel) s = .next t
          ∧ t = { s with doutBytes := t.doutBytes, doutLen := len + 6, status := .ok }
          ∧ (t.doutBytes[0]?).map BitVec.toNat = some (128 + a)
          ∧ (∀ i : Fin 4, t.doutBytes[1 + i.val]? = some s.din.mnem[i])
          ∧ (∀ i, i < len → t.doutBytes[5 + i]? = some (s.din.bytes.getD i 0x00#8))
          ∧ t.doutBytes[5 + len]? = some 0x0D#8
          ∧ ∀ i, len + 6 ≤ i → t.doutBytes[i]? = s.doutBytes[i]?)

/-- R64, R87, R88: ADDRDEC of the address byte of a frame FRMBLD built gives the board address sent, high bit set. -/
def Obligations.AddressByteRoundTrip : Prop :=
  ∀ (sel : AddressSelect) (s : State), s.din.len ≤ s.params.maxBuf → s.din.len ≤ s.params.maxArgs →
    ∃ t u b, exec (.frmbld sel) s = .next t ∧ t.doutBytes[0]? = some b
      ∧ exec .addrdec { t with din := { t.din with val := b.setWidth 32 } } = .next u
      ∧ u.status = .ok ∧ u.doutHi = true
      ∧ (sel = .broadcast → u.doutAddr = 0) ∧ (sel = .target → u.doutAddr = s.target)

/-! ### The response parser -/

/-- R93, R89: PRSTART puts the parser at the start of a frame from any state; `PBUF` is not cleared. Its bytes hold
no meaning from then on (R32, R89; U11: any value); that they are as they were is notes/assumptions/7.md. -/
def Obligations.PrstartResult : Prop :=
  ∀ s : State, ∃ t, exec .prstart s = .next t
    ∧ t = { s with parser := t.parser, status := .ok }
    ∧ t.parser.pst.code = 0 ∧ t.parser.pclass.code = 0 ∧ t.parser.preason.code = 0 ∧ t.parser.pcode = 0x00#8
    ∧ t.parser.prsn = 0x00#8 ∧ t.parser.pterm = false ∧ t.parser.plen = 0 ∧ t.parser.pbuf = s.parser.pbuf

/-- R94, R90: PRBYTE refuses a value above 0xFF; otherwise the parser takes the byte as R90's table says, row by row. -/
def Obligations.PrbyteResult : Prop :=
  ∀ s : State,
    let p := s.parser
    (256 ≤ s.din.val.toNat → exec .prbyte s = .next { s with status := .badOperand })
      ∧ ∀ b : Byte, s.din.val.toNat = b.toNat →
        ∃ q, exec .prbyte s = .next { s with parser := q, status := .ok }
          ∧ (p.pst = .scan → b = 0x06#8 → q = { p with pst := .ackp })
          ∧ (p.pst = .scan → b = 0x15#8 → q = { p with pst := .nak1 })
          ∧ (p.pst = .scan → b ≠ 0x06#8 → b ≠ 0x15#8 → q = p)
          ∧ (p.pst = .ackp → Terminator b → q = { p with pterm := true, pclass := .ack, pst := .done })
          ∧ (p.pst = .ackp → ¬Terminator b → p.plen = s.params.maxPayload →
            q = { p with pclass := .payloadOverflow, pst := .done })
          ∧ (p.pst = .ackp → ¬Terminator b → p.plen ≠ s.params.maxPayload →
            q = { p with pbuf := p.pbuf.set p.plen b, plen := p.plen + 1 })
          ∧ (p.pst = .nak1 → b = 0x31#8 → q = { p with pcode := b, pclass := .nakNotRecognized, pst := .nakt })
          ∧ (p.pst = .nak1 → b = 0x32#8 → q = { p with pcode := b, pclass := .nakTooLong, pst := .nakt })
          ∧ (p.pst = .nak1 → b = 0x33#8 → q = { p with pcode := b, pst := .nak2 })
          ∧ (p.pst = .nak1 → Terminator b →
            q = { p with pcode := b, pclass := .malformedNak, pterm := true, pst := .done })
          ∧ (p.pst = .nak1 → (b.toNat < 0x31 ∨ 0x33 < b.toNat) → ¬Terminator b →
            q = { p with pcode := b, pclass := .malformedNak, pst := .nakt })
          ∧ (p.pst = .nak2 → Terminator b →
            q = { p with prsn := b, pclass := .malformedNak, pterm := true, pst := .done })
          ∧ (p.pst = .nak2 → 0x31 ≤ b.toNat → b.toNat ≤ 0x34 →
            q = { p with prsn := b, pclass := .nakFailed, preason := q.preason, pst := .nakt }
              ∧ q.preason.code.toNat = b.toNat - 0x30)
          ∧ (p.pst = .nak2 → (b.toNat < 0x31 ∨ 0x34 < b.toNat) → ¬Terminator b →
            q = { p with prsn := b, pclass := .nakUnknownReason, pst := .nakt })
          ∧ (p.pst = .nakt → (q.pterm = true ↔ Terminator b) ∧ q = { p with pterm := q.pterm, pst := .done })
          ∧ (p.pst = .done → q = p)

/-- R95, R91: PREND marks the end of the input, state by state. `PTERM` stays as it was; that it is 0 in ACKP, as R95 says, is
part of the invariant (`Parser.Consistent`), which every step keeps. -/
def Obligations.PrendResult : Prop :=
  ∀ s : State,
    let p := s.parser
    ∃ q, exec .prend s = .next { s with parser := q, status := .ok }
      ∧ (p.pst = .scan → q = { p with pclass := .noResponse, pst := .done })
      ∧ (p.pst = .ackp → q = { p with pclass := .ack, pst := .done })
      ∧ (p.pst = .nak1 → q = { p with pclass := .malformedNak, pst := .done })
      ∧ (p.pst = .nak2 → q = { p with pclass := .malformedNak, pst := .done })
      ∧ (p.pst = .nakt → q = { p with pst := .done })
      ∧ (p.pst = .done → q = p)

/-- R96: PARSE refuses a length above `MAX_BUF`; otherwise it completes, writes only `STATUS` and the parser's registers, and
leaves the parser in DONE. -/
def Obligations.ParseCompletesInDone : Prop :=
  ∀ s : State,
    (s.params.maxBuf < s.din.len → exec .parse s = .next { s with status := .badOperand })
      ∧ (s.din.len ≤ s.params.maxBuf →
        ∃ t, exec .parse s = .next t ∧ t = { s with parser := t.parser, status := .ok } ∧ t.parser.pst = .done)

/-- R96, "Equivalence": a PARSE request and the requests PRSTART, PRBYTE for each byte in order, PREND, run by the machine's
own steps, leave every register alike. The ports and the inputs to come, which are the model's own, are not compared. -/
def Obligations.ParseEqualsByteStream : Prop :=
  ∀ s : State, s.din.len ≤ s.params.maxBuf →
    ∃ t u, step { s with pending := [.request 0x000C#16 s.din] } = .next t
      ∧ Sys2Proof.core.run (s.din.len + 2) { s with pending := streamRequests s.din } = .next u
      ∧ u = { t with din := u.din, pending := u.pending } ∧ u.pending = []

/-- R96, "Its result depends only on the bytes": two PARSE requests on one byte string, from any two histories of one
instance, give the same verdict, the same registers and the same payload. -/
def Obligations.ParseDependsOnlyOnItsBytes : Prop :=
  ∀ s₁ s₂ t₁ t₂ : State, s₁.Inv → s₂.Inv → s₁.params = s₂.params → s₁.din.string = s₂.din.string →
    s₁.din.len ≤ s₁.params.maxBuf → exec .parse s₁ = .next t₁ → exec .parse s₂ = .next t₂ →
      t₁.parser = { t₂.parser with pbuf := t₁.parser.pbuf } ∧ t₁.parser.payload = t₂.parser.payload

/-- R66, R92: leading bytes that are neither ACK nor NAK, the ACK byte, a payload with no CR or LF that fits, then a terminator
and anything after it, or the end of the input: class ACK, the payload stored, `PTERM` telling whether a terminator came. -/
def Obligations.AckFrameParses : Prop :=
  ∀ (s : State) (lead payload tail : List Byte), s.Inv → s.din.len ≤ s.params.maxBuf →
    s.din.string = lead ++ 0x06#8 :: (payload ++ tail) →
      (∀ b ∈ lead, b ≠ 0x06#8 ∧ b ≠ 0x15#8) → (∀ b ∈ payload, ¬Terminator b) →
        (tail = [] ∨ StartsWithTerminator tail) → payload.length ≤ s.params.maxPayload →
          ∃ t, exec .parse s = .next t ∧ t.status = .ok ∧ t.parser.pclass.code = 1 ∧ t.parser.pst = .done
            ∧ t.parser.plen = payload.length ∧ t.parser.pbuf.take payload.length = payload
            ∧ (t.parser.pterm = true ↔ tail ≠ [])
            ∧ t.parser.preason.code = 0 ∧ t.parser.pcode = 0x00#8 ∧ t.parser.prsn = 0x00#8

/-- R103, row 8, R90: an ACK payload longer than `MAX_PAYLOAD` gives PAYLOAD_OVERFLOW, with its first `MAX_PAYLOAD` bytes
stored. -/
def Obligations.LongPayloadOverflows : Prop :=
  ∀ (s : State) (lead payload tail : List Byte), s.Inv → s.din.len ≤ s.params.maxBuf →
    s.din.string = lead ++ 0x06#8 :: (payload ++ tail) →
      (∀ b ∈ lead, b ≠ 0x06#8 ∧ b ≠ 0x15#8) → (∀ b ∈ payload, ¬Terminator b) →
        s.params.maxPayload < payload.length →
          ∃ t, exec .parse s = .next t ∧ t.status = .ok ∧ t.parser.pclass.code = 8 ∧ t.parser.pst = .done
            ∧ t.parser.plen = s.params.maxPayload ∧ t.parser.pterm = false
            ∧ t.parser.pbuf = payload.take s.params.maxPayload

/-- R67 to R69, R90, R91: leading bytes that are neither ACK nor NAK, the NAK byte, then each case of the code and the
reason. -/
def Obligations.NakFrameParses : Prop :=
  ∀ (s : State) (lead rest : List Byte), s.din.len ≤ s.params.maxBuf →
    s.din.string = lead ++ 0x15#8 :: rest → (∀ b ∈ lead, b ≠ 0x06#8 ∧ b ≠ 0x15#8) →
      ∃ t, exec .parse s = .next t ∧ t.status = .ok ∧ t.parser.pst = .done ∧ t.parser.plen = 0
        ∧ (rest = [] → t.parser.pclass.code = 6 ∧ t.parser.preason.code = 0 ∧ t.parser.pcode = 0x00#8
          ∧ t.parser.prsn = 0x00#8 ∧ t.parser.pterm = false)
        ∧ (∀ r, rest = 0x31#8 :: r → t.parser.pclass.code = 2 ∧ t.parser.preason.code = 0 ∧ t.parser.pcode = 0x31#8
          ∧ t.parser.prsn = 0x00#8 ∧ (t.parser.pterm = true ↔ StartsWithTerminator r))
        ∧ (∀ r, rest = 0x32#8 :: r → t.parser.pclass.code = 3 ∧ t.parser.preason.code = 0 ∧ t.parser.pcode = 0x32#8
          ∧ t.parser.prsn = 0x00#8 ∧ (t.parser.pterm = true ↔ StartsWithTerminator r))
        ∧ (rest = [0x33#8] → t.parser.pclass.code = 6 ∧ t.parser.preason.code = 0 ∧ t.parser.pcode = 0x33#8
          ∧ t.parser.prsn = 0x00#8 ∧ t.parser.pterm = false)
        ∧ (∀ c r, rest = 0x33#8 :: c :: r → 0x31 ≤ c.toNat → c.toNat ≤ 0x34 →
          t.parser.pclass.code = 4 ∧ t.parser.preason.code.toNat = c.toNat - 0x30 ∧ t.parser.pcode = 0x33#8
            ∧ t.parser.prsn = c ∧ (t.parser.pterm = true ↔ StartsWithTerminator r))
        ∧ (∀ c r, rest = 0x33#8 :: c :: r → Terminator c →
          t.parser.pclass.code = 6 ∧ t.parser.preason.code = 0 ∧ t.parser.pcode = 0x33#8 ∧ t.parser.prsn = c
            ∧ t.parser.pterm = true)
        ∧ (∀ c r, rest = 0x33#8 :: c :: r → (c.toNat < 0x31 ∨ 0x34 < c.toNat) → ¬Terminator c →
          t.parser.pclass.code = 5 ∧ t.parser.preason.code = 0 ∧ t.parser.pcode = 0x33#8 ∧ t.parser.prsn = c
            ∧ (t.parser.pterm = true ↔ StartsWithTerminator r))
        ∧ ∀ c r, rest = c :: r → (c.toNat < 0x31 ∨ 0x33 < c.toNat) →
          t.parser.pclass.code = 6 ∧ t.parser.preason.code = 0 ∧ t.parser.pcode = c ∧ t.parser.prsn = 0x00#8
            ∧ (t.parser.pterm = true ↔ Terminator c ∨ StartsWithTerminator r)

/-- R91, R96, R103 row 7: a buffer with no ACK and no NAK byte, the empty one included, gives NO_RESPONSE. -/
def Obligations.NoControlByteIsNoResponse : Prop :=
  ∀ s : State, s.din.len ≤ s.params.maxBuf → (∀ b ∈ s.din.string, b ≠ 0x06#8 ∧ b ≠ 0x15#8) →
    ∃ t, exec .parse s = .next t ∧ t.status = .ok ∧ t.parser.pclass.code = 7 ∧ t.parser.pst = .done
      ∧ t.parser.preason.code = 0 ∧ t.parser.pcode = 0x00#8 ∧ t.parser.prsn = 0x00#8 ∧ t.parser.pterm = false
      ∧ t.parser.plen = 0

/-- R105: once a frame has its class, later bytes and the end of the input change none of the class, the reason, the code and
reason bytes and the payload. -/
def Obligations.VerdictIsFinal : Prop :=
  ∀ (i : Instr) (s t : State), s.Inv → s.parser.pclass ≠ .pending → (i = .prbyte ∨ i = .prend) → exec i s = .next t →
    t.parser = { s.parser with pst := t.parser.pst, pterm := t.parser.pterm }

/-- R122: in DONE every further byte, and the end of the input, is ignored. -/
def Obligations.DoneIgnoresFurtherInput : Prop :=
  ∀ s : State, s.parser.pst = .done →
    (s.din.val.toNat < 256 → exec .prbyte s = .next { s with status := .ok })
      ∧ exec .prend s = .next { s with status := .ok }
end

