-- ==== Sys2Proof/Laws/Decode.lean ====
section
/-! SUPPORT. The fields of an encoded control word (spec/30_encoding.md R53), one lemma per field, and when a word is
illegal. -/

namespace Sys2Proof

@[simp] theorem getElem_placeBits (w lo : Nat) {n : Nat} (v : BitVec n) (i : Nat) (hi : i < w) :
    (placeBits w lo v)[i] = (decide (lo ≤ i) && v.getLsbD (i - lo)) := by
  by_cases h : lo ≤ i
  · simp [placeBits, h]
  · simp [placeBits, h]

variable (op : BitVec 4) (width count : Nat) (b s : Bool)

/-- Every bit of an encoded control word. -/
theorem getLsbD_controlWord (i : Nat) :
    (controlWord op width count b s).getLsbD i =
      if i < 4 then op.getLsbD i
      else if i < 8 then (BitVec.ofNat 4 width).getLsbD (i - 4)
      else if i < 13 then (BitVec.ofNat 5 count).getLsbD (i - 8)
      else if i = 13 then b
      else if i = 14 then s
      else false := by
  by_cases hi : i < 16
  · interval_cases i <;> simp [controlWord]
  · rw [BitVec.getLsbD_of_ge _ _ (by omega)]
    split_ifs <;> first | omega | rfl

@[simp] theorem opField_controlWord : opField (controlWord op width count b s) = op := by
  ext i hi
  simp only [opField, BitVec.getElem_extractLsb', getLsbD_controlWord, Nat.zero_add, if_pos hi]
  exact BitVec.getLsbD_eq_getElem hi

@[simp] theorem widthField_controlWord : widthField (controlWord op width count b s) = BitVec.ofNat 4 width := by
  ext i hi
  simp only [widthField, BitVec.getElem_extractLsb', getLsbD_controlWord]
  rw [if_neg (by omega), if_pos (by omega), show 4 + i - 4 = i by omega]
  exact BitVec.getLsbD_eq_getElem hi

@[simp] theorem countField_controlWord : countField (controlWord op width count b s) = BitVec.ofNat 5 count := by
  ext i hi
  simp only [countField, BitVec.getElem_extractLsb', getLsbD_controlWord]
  rw [if_neg (by omega), if_neg (by omega), if_pos (by omega), show 8 + i - 8 = i by omega]
  exact BitVec.getLsbD_eq_getElem hi

@[simp] theorem broadcastBit_controlWord : broadcastBit (controlWord op width count b s) = b := by
  simp [broadcastBit, -BitVec.getLsbD_eq_getElem, getLsbD_controlWord]

@[simp] theorem sourceBit_controlWord : sourceBit (controlWord op width count b s) = s := by
  simp [sourceBit, -BitVec.getLsbD_eq_getElem, getLsbD_controlWord]

@[simp] theorem reservedBit_controlWord : reservedBit (controlWord op width count b s) = false := by
  simp [reservedBit, -BitVec.getLsbD_eq_getElem, getLsbD_controlWord]

@[simp] theorem sourceOfBit_bit (src : Source) : sourceOfBit src.bit = src := by cases src <;> rfl

@[simp] theorem addressOfBit_bit (sel : AddressSelect) : addressOfBit sel.bit = sel := by cases sel <;> rfl

@[simp] theorem bit_sourceOfBit (x : Bool) : (sourceOfBit x).bit = x := by cases x <;> rfl

@[simp] theorem bit_addressOfBit (x : Bool) : (addressOfBit x).bit = x := by cases x <;> rfl

/-- A control word is illegal exactly where R56 says. -/
theorem decode_error_iff (cw : ControlWord) :
    (∃ e, decode cw = .error e) ↔
      reservedBit cw = true ∨ opField cw = 0x0#4 ∨ opField cw = 0xD#4 ∨ opField cw = 0xE#4 ∨ opField cw = 0xF#4 := by
  unfold decode
  by_cases h : reservedBit cw
  · simp [h]
  · simp only [h, Bool.false_eq_true, if_false, false_or]
    generalize hop : opField cw = op
    obtain ⟨k, hk, rfl⟩ : ∃ k, k < 16 ∧ op = BitVec.ofNat 4 k := ⟨op.toNat, op.isLt, by simp⟩
    interval_cases k <;> simp

end Sys2Proof
end

