-- ==== Sys2Proof/Laws/ChannelConfig.lean ====
section
/-! SUPPORT. The bits of a configuration word (spec/30_encoding.md R60 to R62) and the range check of `DIN_VAL`. -/

namespace Sys2Proof.Machine

/-- R62. -/
theorem getElem_rev6 (v : BitVec 6) (i : Nat) (h : i < 6) : (rev6 v)[i] = v.getLsbD (5 - i) := by
  rw [← BitVec.getLsbD_eq_getElem, rev6, BitVec.getLsbD_reverse, BitVec.getMsbD]
  simp [h]

/-- Reversing twice gives the value back (R62). -/
@[simp] theorem rev6_rev6 (v : BitVec 6) : rev6 (rev6 v) = v := by
  revert v; decide

/-- The range check of `DIN_VAL`. -/
theorem valueFits_iff (n : Nat) (v : Value) : valueFits n v = true ↔ v.toNat < 2 ^ n := by
  simp only [valueFits, beq_iff_eq, ← BitVec.toNat_inj, BitVec.toNat_ushiftRight, Nat.shiftRight_eq_div_pow]
  simp [Nat.div_eq_zero_iff]

/-- Every bit of an encoded configuration word (R60, R82). -/
theorem getElem_encodeConfig (c : ChannelConfig) (i : Nat) (h : i < 16) :
    (encodeConfig c)[i] =
      if i = 0 then c.lp
      else if i = 1 then signalBit c
      else if i = 2 then c.hp
      else if i < 9 then c.a1.getLsbD (8 - i)
      else if i < 15 then c.a2.getLsbD (14 - i)
      else c.dc := by
  interval_cases i <;> simp [encodeConfig, getElem_rev6]

end Sys2Proof.Machine
end

