-- ==== Sys2Proof/Laws/HexCodec.lean ====
section
/-! SUPPORT. Byte strings, hex characters and hex fields (Machine/Operands.lean): spec/40_hex_codec.md R71, R72, R74. -/

namespace Sys2Proof.Machine

/-! ### `firstBytes` -/

@[simp] theorem length_firstBytes (n : Nat) (bs : List Byte) : (firstBytes n bs).length = n := by
  induction n generalizing bs with
  | zero => rfl
  | succ n ih => cases bs <;> simp [firstBytes, ih]

theorem getElem?_firstBytes (n : Nat) (bs : List Byte) (i : Nat) (hi : i < n) :
    (firstBytes n bs)[i]? = some (bs.getD i 0x00#8) := by
  induction n generalizing bs i with
  | zero => omega
  | succ n ih =>
    cases bs with
    | nil =>
      cases i with
      | zero => rfl
      | succ i => simpa [firstBytes] using ih [] i (by omega)
    | cons b bs =>
      cases i with
      | zero => rfl
      | succ i => simpa [firstBytes] using ih bs i (by omega)

@[simp] theorem firstBytes_length_append (f r : List Byte) : firstBytes f.length (f ++ r) = f := by
  induction f with
  | nil => rfl
  | cons b f ih => simp [firstBytes, ih]

theorem firstBytes_eq_take (n : Nat) (bs : List Byte) (h : n ≤ bs.length) : firstBytes n bs = bs.take n := by
  induction n generalizing bs with
  | zero => rfl
  | succ n ih =>
    cases bs with
    | nil => simp at h
    | cons b bs => simpa [firstBytes] using ih bs (by simpa using h)

/-- Two strings of one length are equal when the port bytes they are read from agree below that length. -/
theorem firstBytes_congr (n : Nat) (bs cs : List Byte) (h : ∀ k, k < n → bs.getD k 0x00#8 = cs.getD k 0x00#8) :
    firstBytes n bs = firstBytes n cs := by
  refine List.ext_getElem? fun i => ?_
  by_cases hi : i < n
  · rw [getElem?_firstBytes n bs i hi, getElem?_firstBytes n cs i hi, h i hi]
  · rw [List.getElem?_eq_none (by simpa using hi), List.getElem?_eq_none (by simpa using hi)]

/-- The length of the string a source holds. -/
@[simp] theorem length_sourceString (source : Source) (s : State) :
    (sourceString source s).length = sourceLen source s := by
  cases source <;> simp [sourceString, sourceLen, Ports.string, Parser.payload]

/-! ### `overlay` -/

theorem getElem?_overlay_lt (new old : List Byte) (i : Nat) (h : i < new.length) : (overlay new old)[i]? = new[i]? := by
  simp [overlay, List.getElem?_append_left h]

theorem getElem?_overlay_ge (new old : List Byte) (i : Nat) (h : new.length ≤ i) : (overlay new old)[i]? = old[i]? := by
  simp [overlay, List.getElem?_append_right h, Nat.add_sub_cancel' h]

/-- A register keeps its size when the string written fits it. -/
theorem length_overlay (new old : List Byte) (h : new.length ≤ old.length) : (overlay new old).length = old.length := by
  simp [overlay]; omega

/-! ### Characters -/

theorem digitOf_lt (b : Byte) : digitOf b < 16 := by
  have hlt := b.isLt
  unfold digitOf isHex
  simp only [BitVec.le_def, Bool.or_eq_true, Bool.and_eq_true, decide_eq_true_eq]
  split_ifs <;> simp_all <;> omega

@[simp] theorem isHex_hexChar (d : BitVec 4) : isHex (hexChar d) = true := by
  revert d; decide

@[simp] theorem digitOf_hexChar (d : BitVec 4) : digitOf (hexChar d) = d.toNat := by
  revert d; decide

theorem digitOf_of_not_isHex (b : Byte) (h : isHex b = false) : digitOf b = 0 := by simp [digitOf, h]

/-! ### Field values -/

@[simp] theorem fieldValue_nil : fieldValue [] = 0 := rfl

theorem fieldValue_concat (f : List Byte) (b : Byte) : fieldValue (f ++ [b]) = fieldValue f * 16 + digitOf b := by
  simp [fieldValue]

/-- The first character is the most significant digit (R40). -/
theorem fieldValue_cons (b : Byte) (f : List Byte) :
    fieldValue (b :: f) = digitOf b * 16 ^ f.length + fieldValue f := by
  induction f using List.reverseRecOn with
  | nil => simp [fieldValue]
  | append_singleton f c ih =>
    rw [← List.cons_append, fieldValue_concat, ih, fieldValue_concat, List.length_append, List.length_singleton]
    ring

/-- A width-`n` field carries `4 n` bits (R77). -/
theorem fieldValue_lt (f : List Byte) : fieldValue f < 16 ^ f.length := by
  induction f with
  | nil => simp
  | cons b f ih =>
    have hd := digitOf_lt b
    rw [fieldValue_cons, List.length_cons, pow_succ]
    nlinarith [Nat.pow_pos (n := f.length) (show 0 < 16 by decide)]

/-! ### Masks -/

/-- Bit `i` of the mask is set iff character `i` is not a hex character (R72). -/
theorem testBit_fieldMask (f : List Byte) (i : Nat) :
    (fieldMask f).testBit i = match f[i]? with
      | some b => !isHex b
      | none => false := by
  induction f generalizing i with
  | nil => simp [fieldMask]
  | cons b f ih =>
    cases i with
    | zero => cases h : isHex b <;> simp [fieldMask, h, Nat.add_mod]
    | succ i =>
      rw [Nat.testBit_succ]
      have : fieldMask (b :: f) / 2 = fieldMask f := by cases h : isHex b <;> simp [fieldMask, h]; omega
      rw [this, ih]; rfl

theorem fieldMask_lt (f : List Byte) : fieldMask f < 2 ^ f.length := by
  induction f with
  | nil => simp [fieldMask]
  | cons b f ih => cases h : isHex b <;> simp [fieldMask, h, pow_succ] <;> omega

theorem fieldMask_eq_zero_iff (f : List Byte) : fieldMask f = 0 ↔ ∀ b ∈ f, isHex b = true := by
  induction f with
  | nil => simp [fieldMask]
  | cons b f ih => cases h : isHex b <;> simp [fieldMask, h, ih]

/-! ### Encoding -/

@[simp] theorem length_hexField (w : Nat) (v : Value) : (hexField w v).length = w := by simp [hexField]

theorem getElem?_hexField (w : Nat) (v : Value) (i : Nat) (h : i < w) :
    (hexField w v)[i]? = some (hexChar (v.extractLsb' (4 * (w - 1 - i)) 4)) := by
  simp [hexField, h]

/-- An encoded field is valid throughout. -/
@[simp] theorem fieldMask_hexField (w : Nat) (v : Value) : fieldMask (hexField w v) = 0 := by
  rw [fieldMask_eq_zero_iff]; simp [hexField]

/-! ### Legal operands -/

theorem widthLegal_iff (w : Nat) : widthLegal w = true ↔ 1 ≤ w ∧ w ≤ 8 := by
  unfold widthLegal
  rw [Bool.and_eq_true, decide_eq_true_iff, decide_eq_true_iff]
  exact Iff.rfl

theorem countLegal_iff (n : Nat) : countLegal n = true ↔ 1 ≤ n ∧ n ≤ 16 := by
  unfold countLegal
  rw [Bool.and_eq_true, decide_eq_true_iff, decide_eq_true_iff]
  exact Iff.rfl

/-- A legal width's value is too large exactly when it is at least `16^w`; at width 8 none is (R74). -/
theorem hexTooLarge_iff (w : Nat) (v : Value) (h : w ≤ 8) : hexTooLarge w v = true ↔ 16 ^ w ≤ v.toNat := by
  have hv := v.isLt
  have hp : (2 : Nat) ^ (4 * w) = 16 ^ w := by rw [pow_mul]; rfl
  unfold hexTooLarge
  rw [Bool.and_eq_true, decide_eq_true_iff, decide_eq_true_iff, hp]
  refine ⟨fun ⟨_, h2⟩ => h2, fun h2 => ⟨?_, h2⟩⟩
  by_contra hc
  obtain rfl : w = 8 := by omega
  omega

/-! ### The alphabet -/

/-- The alphabet of R58 and the byte ranges of R59 are one set. -/
theorem mem_hexAlphabet_iff (b : Byte) : b ∈ hexAlphabet ↔ isHex b = true := by
  revert b; decide +kernel

theorem charDigit_eq_digitOf (b : Byte) : charDigit b = digitOf b := by
  revert b; decide +kernel

/-- `HEXCHAR(d)` is entry `d` of the alphabet. -/
theorem hexAlphabet_getElem? (d : BitVec 4) : hexAlphabet[d.toNat]? = some (hexChar d) := by
  revert d; decide

/-- Character `i` of the string a source holds. -/
theorem getElem?_sourceString (source : Source) (s : State) (i : Nat) (h : i < sourceLen source s) :
    (sourceString source s)[i]? = some (sourceChar source s i) := by
  cases source
  · exact getElem?_firstBytes _ _ _ h
  · exact getElem?_firstBytes _ _ _ h

/-! ### The FLAGS word -/

@[simp] theorem flagsWord_inv (excess trunc inv : Bool) : (flagsWord excess trunc inv)[0] = inv := by
  cases excess <;> cases trunc <;> cases inv <;> rfl

@[simp] theorem flagsWord_trunc (excess trunc inv : Bool) : (flagsWord excess trunc inv)[1] = trunc := by
  cases excess <;> cases trunc <;> cases inv <;> rfl

@[simp] theorem flagsWord_excess (excess trunc inv : Bool) : (flagsWord excess trunc inv)[2] = excess := by
  cases excess <;> cases trunc <;> cases inv <;> rfl

end Sys2Proof.Machine
end

