-- ==== Sys2Proof/Laws/State.lean ====
section
/-! SUPPORT. One lemma per field per named update of State (Machine/Ops.lean), so that no proof unfolds a record update. -/

namespace Sys2Proof.Machine

variable (s : State)

/-! ### `State.setStatus` -/

@[simp] theorem State.setStatus_status (st : Status) : (s.setStatus st).status = st := rfl
@[simp] theorem State.setStatus_flags (st : Status) : (s.setStatus st).flags = s.flags := rfl
@[simp] theorem State.setStatus_doutVal (st : Status) : (s.setStatus st).doutVal = s.doutVal := rfl
@[simp] theorem State.setStatus_doutLen (st : Status) : (s.setStatus st).doutLen = s.doutLen := rfl
@[simp] theorem State.setStatus_doutBytes (st : Status) : (s.setStatus st).doutBytes = s.doutBytes := rfl
@[simp] theorem State.setStatus_doutMask (st : Status) : (s.setStatus st).doutMask = s.doutMask := rfl
@[simp] theorem State.setStatus_doutVals (st : Status) : (s.setStatus st).doutVals = s.doutVals := rfl
@[simp] theorem State.setStatus_doutMasks (st : Status) : (s.setStatus st).doutMasks = s.doutMasks := rfl
@[simp] theorem State.setStatus_doutNvalid (st : Status) : (s.setStatus st).doutNvalid = s.doutNvalid := rfl
@[simp] theorem State.setStatus_doutCfg (st : Status) : (s.setStatus st).doutCfg = s.doutCfg := rfl
@[simp] theorem State.setStatus_doutAddr (st : Status) : (s.setStatus st).doutAddr = s.doutAddr := rfl
@[simp] theorem State.setStatus_doutHi (st : Status) : (s.setStatus st).doutHi = s.doutHi := rfl
@[simp] theorem State.setStatus_target (st : Status) : (s.setStatus st).target = s.target := rfl
@[simp] theorem State.setStatus_parser (st : Status) : (s.setStatus st).parser = s.parser := rfl
@[simp] theorem State.setStatus_params (st : Status) : (s.setStatus st).params = s.params := rfl
@[simp] theorem State.setStatus_din (st : Status) : (s.setStatus st).din = s.din := rfl
@[simp] theorem State.setStatus_pending (st : Status) : (s.setStatus st).pending = s.pending := rfl

/-! ### `State.setDoutLen` -/

@[simp] theorem State.setDoutLen_status (n : Nat) : (s.setDoutLen n).status = s.status := rfl
@[simp] theorem State.setDoutLen_flags (n : Nat) : (s.setDoutLen n).flags = s.flags := rfl
@[simp] theorem State.setDoutLen_doutVal (n : Nat) : (s.setDoutLen n).doutVal = s.doutVal := rfl
@[simp] theorem State.setDoutLen_doutLen (n : Nat) : (s.setDoutLen n).doutLen = n := rfl
@[simp] theorem State.setDoutLen_doutBytes (n : Nat) : (s.setDoutLen n).doutBytes = s.doutBytes := rfl
@[simp] theorem State.setDoutLen_doutMask (n : Nat) : (s.setDoutLen n).doutMask = s.doutMask := rfl
@[simp] theorem State.setDoutLen_doutVals (n : Nat) : (s.setDoutLen n).doutVals = s.doutVals := rfl
@[simp] theorem State.setDoutLen_doutMasks (n : Nat) : (s.setDoutLen n).doutMasks = s.doutMasks := rfl
@[simp] theorem State.setDoutLen_doutNvalid (n : Nat) : (s.setDoutLen n).doutNvalid = s.doutNvalid := rfl
@[simp] theorem State.setDoutLen_doutCfg (n : Nat) : (s.setDoutLen n).doutCfg = s.doutCfg := rfl
@[simp] theorem State.setDoutLen_doutAddr (n : Nat) : (s.setDoutLen n).doutAddr = s.doutAddr := rfl
@[simp] theorem State.setDoutLen_doutHi (n : Nat) : (s.setDoutLen n).doutHi = s.doutHi := rfl
@[simp] theorem State.setDoutLen_target (n : Nat) : (s.setDoutLen n).target = s.target := rfl
@[simp] theorem State.setDoutLen_parser (n : Nat) : (s.setDoutLen n).parser = s.parser := rfl
@[simp] theorem State.setDoutLen_params (n : Nat) : (s.setDoutLen n).params = s.params := rfl
@[simp] theorem State.setDoutLen_din (n : Nat) : (s.setDoutLen n).din = s.din := rfl
@[simp] theorem State.setDoutLen_pending (n : Nat) : (s.setDoutLen n).pending = s.pending := rfl

/-! ### `State.latchBytes` -/

@[simp] theorem State.latchBytes_status (f : List Byte) : (s.latchBytes f).status = s.status := rfl
@[simp] theorem State.latchBytes_flags (f : List Byte) : (s.latchBytes f).flags = s.flags := rfl
@[simp] theorem State.latchBytes_doutVal (f : List Byte) : (s.latchBytes f).doutVal = s.doutVal := rfl
@[simp] theorem State.latchBytes_doutLen (f : List Byte) : (s.latchBytes f).doutLen = f.length := rfl
@[simp] theorem State.latchBytes_doutBytes (f : List Byte) : (s.latchBytes f).doutBytes = overlay f s.doutBytes := rfl
@[simp] theorem State.latchBytes_doutMask (f : List Byte) : (s.latchBytes f).doutMask = s.doutMask := rfl
@[simp] theorem State.latchBytes_doutVals (f : List Byte) : (s.latchBytes f).doutVals = s.doutVals := rfl
@[simp] theorem State.latchBytes_doutMasks (f : List Byte) : (s.latchBytes f).doutMasks = s.doutMasks := rfl
@[simp] theorem State.latchBytes_doutNvalid (f : List Byte) : (s.latchBytes f).doutNvalid = s.doutNvalid := rfl
@[simp] theorem State.latchBytes_doutCfg (f : List Byte) : (s.latchBytes f).doutCfg = s.doutCfg := rfl
@[simp] theorem State.latchBytes_doutAddr (f : List Byte) : (s.latchBytes f).doutAddr = s.doutAddr := rfl
@[simp] theorem State.latchBytes_doutHi (f : List Byte) : (s.latchBytes f).doutHi = s.doutHi := rfl
@[simp] theorem State.latchBytes_target (f : List Byte) : (s.latchBytes f).target = s.target := rfl
@[simp] theorem State.latchBytes_parser (f : List Byte) : (s.latchBytes f).parser = s.parser := rfl
@[simp] theorem State.latchBytes_params (f : List Byte) : (s.latchBytes f).params = s.params := rfl
@[simp] theorem State.latchBytes_din (f : List Byte) : (s.latchBytes f).din = s.din := rfl
@[simp] theorem State.latchBytes_pending (f : List Byte) : (s.latchBytes f).pending = s.pending := rfl

/-! ### `State.latchValue` -/

@[simp] theorem State.latchValue_status (v : Value) : (s.latchValue v).status = s.status := rfl
@[simp] theorem State.latchValue_flags (v : Value) : (s.latchValue v).flags = s.flags := rfl
@[simp] theorem State.latchValue_doutVal (v : Value) : (s.latchValue v).doutVal = v := rfl
@[simp] theorem State.latchValue_doutLen (v : Value) : (s.latchValue v).doutLen = s.doutLen := rfl
@[simp] theorem State.latchValue_doutBytes (v : Value) : (s.latchValue v).doutBytes = s.doutBytes := rfl
@[simp] theorem State.latchValue_doutMask (v : Value) : (s.latchValue v).doutMask = s.doutMask := rfl
@[simp] theorem State.latchValue_doutVals (v : Value) : (s.latchValue v).doutVals = s.doutVals := rfl
@[simp] theorem State.latchValue_doutMasks (v : Value) : (s.latchValue v).doutMasks = s.doutMasks := rfl
@[simp] theorem State.latchValue_doutNvalid (v : Value) : (s.latchValue v).doutNvalid = s.doutNvalid := rfl
@[simp] theorem State.latchValue_doutCfg (v : Value) : (s.latchValue v).doutCfg = s.doutCfg := rfl
@[simp] theorem State.latchValue_doutAddr (v : Value) : (s.latchValue v).doutAddr = s.doutAddr := rfl
@[simp] theorem State.latchValue_doutHi (v : Value) : (s.latchValue v).doutHi = s.doutHi := rfl
@[simp] theorem State.latchValue_target (v : Value) : (s.latchValue v).target = s.target := rfl
@[simp] theorem State.latchValue_parser (v : Value) : (s.latchValue v).parser = s.parser := rfl
@[simp] theorem State.latchValue_params (v : Value) : (s.latchValue v).params = s.params := rfl
@[simp] theorem State.latchValue_din (v : Value) : (s.latchValue v).din = s.din := rfl
@[simp] theorem State.latchValue_pending (v : Value) : (s.latchValue v).pending = s.pending := rfl

/-! ### `State.latchField` -/

@[simp] theorem State.latchField_status (f : List Byte) : (s.latchField f).status = s.status := rfl
@[simp] theorem State.latchField_flags (f : List Byte) : (s.latchField f).flags = hexdecFlags f := rfl
@[simp] theorem State.latchField_doutVal (f : List Byte) : (s.latchField f).doutVal = BitVec.ofNat 32 (fieldValue f) := rfl
@[simp] theorem State.latchField_doutLen (f : List Byte) : (s.latchField f).doutLen = s.doutLen := rfl
@[simp] theorem State.latchField_doutBytes (f : List Byte) : (s.latchField f).doutBytes = s.doutBytes := rfl
@[simp] theorem State.latchField_doutMask (f : List Byte) : (s.latchField f).doutMask = BitVec.ofNat 8 (fieldMask f) := rfl
@[simp] theorem State.latchField_doutVals (f : List Byte) : (s.latchField f).doutVals = s.doutVals := rfl
@[simp] theorem State.latchField_doutMasks (f : List Byte) : (s.latchField f).doutMasks = s.doutMasks := rfl
@[simp] theorem State.latchField_doutNvalid (f : List Byte) : (s.latchField f).doutNvalid = s.doutNvalid := rfl
@[simp] theorem State.latchField_doutCfg (f : List Byte) : (s.latchField f).doutCfg = s.doutCfg := rfl
@[simp] theorem State.latchField_doutAddr (f : List Byte) : (s.latchField f).doutAddr = s.doutAddr := rfl
@[simp] theorem State.latchField_doutHi (f : List Byte) : (s.latchField f).doutHi = s.doutHi := rfl
@[simp] theorem State.latchField_target (f : List Byte) : (s.latchField f).target = s.target := rfl
@[simp] theorem State.latchField_parser (f : List Byte) : (s.latchField f).parser = s.parser := rfl
@[simp] theorem State.latchField_params (f : List Byte) : (s.latchField f).params = s.params := rfl
@[simp] theorem State.latchField_din (f : List Byte) : (s.latchField f).din = s.din := rfl
@[simp] theorem State.latchField_pending (f : List Byte) : (s.latchField f).pending = s.pending := rfl

/-! ### `State.latchFields` -/

@[simp] theorem State.latchFields_status (n w : Nat) (p : List Byte) : (s.latchFields n w p).status = s.status := rfl
@[simp] theorem State.latchFields_flags (n w : Nat) (p : List Byte) : (s.latchFields n w p).flags = hexdecaFlags n w p := rfl
@[simp] theorem State.latchFields_doutVal (n w : Nat) (p : List Byte) : (s.latchFields n w p).doutVal = s.doutVal := rfl
@[simp] theorem State.latchFields_doutLen (n w : Nat) (p : List Byte) : (s.latchFields n w p).doutLen = s.doutLen := rfl
@[simp] theorem State.latchFields_doutBytes (n w : Nat) (p : List Byte) : (s.latchFields n w p).doutBytes = s.doutBytes := rfl
@[simp] theorem State.latchFields_doutMask (n w : Nat) (p : List Byte) : (s.latchFields n w p).doutMask = s.doutMask := rfl
@[simp] theorem State.latchFields_doutVals (n w : Nat) (p : List Byte) : (s.latchFields n w p).doutVals =
    Vector.ofFn fun k =>
      if k.val < completeFields n w p.length then BitVec.ofNat 32 (fieldValue (fieldAt w k.val p)) else 0 := rfl
@[simp] theorem State.latchFields_doutMasks (n w : Nat) (p : List Byte) : (s.latchFields n w p).doutMasks =
    Vector.ofFn fun k =>
      if k.val < completeFields n w p.length then BitVec.ofNat 8 (fieldMask (fieldAt w k.val p)) else 0 := rfl
@[simp] theorem State.latchFields_doutNvalid (n w : Nat) (p : List Byte) : (s.latchFields n w p).doutNvalid = completeFields n w p.length := rfl
@[simp] theorem State.latchFields_doutCfg (n w : Nat) (p : List Byte) : (s.latchFields n w p).doutCfg = s.doutCfg := rfl
@[simp] theorem State.latchFields_doutAddr (n w : Nat) (p : List Byte) : (s.latchFields n w p).doutAddr = s.doutAddr := rfl
@[simp] theorem State.latchFields_doutHi (n w : Nat) (p : List Byte) : (s.latchFields n w p).doutHi = s.doutHi := rfl
@[simp] theorem State.latchFields_target (n w : Nat) (p : List Byte) : (s.latchFields n w p).target = s.target := rfl
@[simp] theorem State.latchFields_parser (n w : Nat) (p : List Byte) : (s.latchFields n w p).parser = s.parser := rfl
@[simp] theorem State.latchFields_params (n w : Nat) (p : List Byte) : (s.latchFields n w p).params = s.params := rfl
@[simp] theorem State.latchFields_din (n w : Nat) (p : List Byte) : (s.latchFields n w p).din = s.din := rfl
@[simp] theorem State.latchFields_pending (n w : Nat) (p : List Byte) : (s.latchFields n w p).pending = s.pending := rfl

/-! ### `State.latchConfig` -/

@[simp] theorem State.latchConfig_status (c : ChannelConfig) : (s.latchConfig c).status = s.status := rfl
@[simp] theorem State.latchConfig_flags (c : ChannelConfig) : (s.latchConfig c).flags = s.flags := rfl
@[simp] theorem State.latchConfig_doutVal (c : ChannelConfig) : (s.latchConfig c).doutVal = s.doutVal := rfl
@[simp] theorem State.latchConfig_doutLen (c : ChannelConfig) : (s.latchConfig c).doutLen = s.doutLen := rfl
@[simp] theorem State.latchConfig_doutBytes (c : ChannelConfig) : (s.latchConfig c).doutBytes = s.doutBytes := rfl
@[simp] theorem State.latchConfig_doutMask (c : ChannelConfig) : (s.latchConfig c).doutMask = s.doutMask := rfl
@[simp] theorem State.latchConfig_doutVals (c : ChannelConfig) : (s.latchConfig c).doutVals = s.doutVals := rfl
@[simp] theorem State.latchConfig_doutMasks (c : ChannelConfig) : (s.latchConfig c).doutMasks = s.doutMasks := rfl
@[simp] theorem State.latchConfig_doutNvalid (c : ChannelConfig) : (s.latchConfig c).doutNvalid = s.doutNvalid := rfl
@[simp] theorem State.latchConfig_doutCfg (c : ChannelConfig) : (s.latchConfig c).doutCfg = c := rfl
@[simp] theorem State.latchConfig_doutAddr (c : ChannelConfig) : (s.latchConfig c).doutAddr = s.doutAddr := rfl
@[simp] theorem State.latchConfig_doutHi (c : ChannelConfig) : (s.latchConfig c).doutHi = s.doutHi := rfl
@[simp] theorem State.latchConfig_target (c : ChannelConfig) : (s.latchConfig c).target = s.target := rfl
@[simp] theorem State.latchConfig_parser (c : ChannelConfig) : (s.latchConfig c).parser = s.parser := rfl
@[simp] theorem State.latchConfig_params (c : ChannelConfig) : (s.latchConfig c).params = s.params := rfl
@[simp] theorem State.latchConfig_din (c : ChannelConfig) : (s.latchConfig c).din = s.din := rfl
@[simp] theorem State.latchConfig_pending (c : ChannelConfig) : (s.latchConfig c).pending = s.pending := rfl

/-! ### `State.latchAddress` -/

@[simp] theorem State.latchAddress_status (a : BitVec 7) (hi : Bool) : (s.latchAddress a hi).status = s.status := rfl
@[simp] theorem State.latchAddress_flags (a : BitVec 7) (hi : Bool) : (s.latchAddress a hi).flags = s.flags := rfl
@[simp] theorem State.latchAddress_doutVal (a : BitVec 7) (hi : Bool) : (s.latchAddress a hi).doutVal = s.doutVal := rfl
@[simp] theorem State.latchAddress_doutLen (a : BitVec 7) (hi : Bool) : (s.latchAddress a hi).doutLen = s.doutLen := rfl
@[simp] theorem State.latchAddress_doutBytes (a : BitVec 7) (hi : Bool) : (s.latchAddress a hi).doutBytes = s.doutBytes := rfl
@[simp] theorem State.latchAddress_doutMask (a : BitVec 7) (hi : Bool) : (s.latchAddress a hi).doutMask = s.doutMask := rfl
@[simp] theorem State.latchAddress_doutVals (a : BitVec 7) (hi : Bool) : (s.latchAddress a hi).doutVals = s.doutVals := rfl
@[simp] theorem State.latchAddress_doutMasks (a : BitVec 7) (hi : Bool) : (s.latchAddress a hi).doutMasks = s.doutMasks := rfl
@[simp] theorem State.latchAddress_doutNvalid (a : BitVec 7) (hi : Bool) : (s.latchAddress a hi).doutNvalid = s.doutNvalid := rfl
@[simp] theorem State.latchAddress_doutCfg (a : BitVec 7) (hi : Bool) : (s.latchAddress a hi).doutCfg = s.doutCfg := rfl
@[simp] theorem State.latchAddress_doutAddr (a : BitVec 7) (hi : Bool) : (s.latchAddress a hi).doutAddr = a := rfl
@[simp] theorem State.latchAddress_doutHi (a : BitVec 7) (hi : Bool) : (s.latchAddress a hi).doutHi = hi := rfl
@[simp] theorem State.latchAddress_target (a : BitVec 7) (hi : Bool) : (s.latchAddress a hi).target = s.target := rfl
@[simp] theorem State.latchAddress_parser (a : BitVec 7) (hi : Bool) : (s.latchAddress a hi).parser = s.parser := rfl
@[simp] theorem State.latchAddress_params (a : BitVec 7) (hi : Bool) : (s.latchAddress a hi).params = s.params := rfl
@[simp] theorem State.latchAddress_din (a : BitVec 7) (hi : Bool) : (s.latchAddress a hi).din = s.din := rfl
@[simp] theorem State.latchAddress_pending (a : BitVec 7) (hi : Bool) : (s.latchAddress a hi).pending = s.pending := rfl

/-! ### `State.setTarget` -/

@[simp] theorem State.setTarget_status (a : BitVec 7) : (s.setTarget a).status = s.status := rfl
@[simp] theorem State.setTarget_flags (a : BitVec 7) : (s.setTarget a).flags = s.flags := rfl
@[simp] theorem State.setTarget_doutVal (a : BitVec 7) : (s.setTarget a).doutVal = s.doutVal := rfl
@[simp] theorem State.setTarget_doutLen (a : BitVec 7) : (s.setTarget a).doutLen = s.doutLen := rfl
@[simp] theorem State.setTarget_doutBytes (a : BitVec 7) : (s.setTarget a).doutBytes = s.doutBytes := rfl
@[simp] theorem State.setTarget_doutMask (a : BitVec 7) : (s.setTarget a).doutMask = s.doutMask := rfl
@[simp] theorem State.setTarget_doutVals (a : BitVec 7) : (s.setTarget a).doutVals = s.doutVals := rfl
@[simp] theorem State.setTarget_doutMasks (a : BitVec 7) : (s.setTarget a).doutMasks = s.doutMasks := rfl
@[simp] theorem State.setTarget_doutNvalid (a : BitVec 7) : (s.setTarget a).doutNvalid = s.doutNvalid := rfl
@[simp] theorem State.setTarget_doutCfg (a : BitVec 7) : (s.setTarget a).doutCfg = s.doutCfg := rfl
@[simp] theorem State.setTarget_doutAddr (a : BitVec 7) : (s.setTarget a).doutAddr = s.doutAddr := rfl
@[simp] theorem State.setTarget_doutHi (a : BitVec 7) : (s.setTarget a).doutHi = s.doutHi := rfl
@[simp] theorem State.setTarget_target (a : BitVec 7) : (s.setTarget a).target = a := rfl
@[simp] theorem State.setTarget_parser (a : BitVec 7) : (s.setTarget a).parser = s.parser := rfl
@[simp] theorem State.setTarget_params (a : BitVec 7) : (s.setTarget a).params = s.params := rfl
@[simp] theorem State.setTarget_din (a : BitVec 7) : (s.setTarget a).din = s.din := rfl
@[simp] theorem State.setTarget_pending (a : BitVec 7) : (s.setTarget a).pending = s.pending := rfl

/-! ### `State.setParser` -/

@[simp] theorem State.setParser_status (p : Parser) : (s.setParser p).status = s.status := rfl
@[simp] theorem State.setParser_flags (p : Parser) : (s.setParser p).flags = s.flags := rfl
@[simp] theorem State.setParser_doutVal (p : Parser) : (s.setParser p).doutVal = s.doutVal := rfl
@[simp] theorem State.setParser_doutLen (p : Parser) : (s.setParser p).doutLen = s.doutLen := rfl
@[simp] theorem State.setParser_doutBytes (p : Parser) : (s.setParser p).doutBytes = s.doutBytes := rfl
@[simp] theorem State.setParser_doutMask (p : Parser) : (s.setParser p).doutMask = s.doutMask := rfl
@[simp] theorem State.setParser_doutVals (p : Parser) : (s.setParser p).doutVals = s.doutVals := rfl
@[simp] theorem State.setParser_doutMasks (p : Parser) : (s.setParser p).doutMasks = s.doutMasks := rfl
@[simp] theorem State.setParser_doutNvalid (p : Parser) : (s.setParser p).doutNvalid = s.doutNvalid := rfl
@[simp] theorem State.setParser_doutCfg (p : Parser) : (s.setParser p).doutCfg = s.doutCfg := rfl
@[simp] theorem State.setParser_doutAddr (p : Parser) : (s.setParser p).doutAddr = s.doutAddr := rfl
@[simp] theorem State.setParser_doutHi (p : Parser) : (s.setParser p).doutHi = s.doutHi := rfl
@[simp] theorem State.setParser_target (p : Parser) : (s.setParser p).target = s.target := rfl
@[simp] theorem State.setParser_parser (p : Parser) : (s.setParser p).parser = p := rfl
@[simp] theorem State.setParser_params (p : Parser) : (s.setParser p).params = s.params := rfl
@[simp] theorem State.setParser_din (p : Parser) : (s.setParser p).din = s.din := rfl
@[simp] theorem State.setParser_pending (p : Parser) : (s.setParser p).pending = s.pending := rfl

/-! ### `State.present` -/

@[simp] theorem State.present_status (d : Ports) (rest : List Event) : (s.present d rest).status = s.status := rfl
@[simp] theorem State.present_flags (d : Ports) (rest : List Event) : (s.present d rest).flags = s.flags := rfl
@[simp] theorem State.present_doutVal (d : Ports) (rest : List Event) : (s.present d rest).doutVal = s.doutVal := rfl
@[simp] theorem State.present_doutLen (d : Ports) (rest : List Event) : (s.present d rest).doutLen = s.doutLen := rfl
@[simp] theorem State.present_doutBytes (d : Ports) (rest : List Event) : (s.present d rest).doutBytes = s.doutBytes := rfl
@[simp] theorem State.present_doutMask (d : Ports) (rest : List Event) : (s.present d rest).doutMask = s.doutMask := rfl
@[simp] theorem State.present_doutVals (d : Ports) (rest : List Event) : (s.present d rest).doutVals = s.doutVals := rfl
@[simp] theorem State.present_doutMasks (d : Ports) (rest : List Event) : (s.present d rest).doutMasks = s.doutMasks := rfl
@[simp] theorem State.present_doutNvalid (d : Ports) (rest : List Event) : (s.present d rest).doutNvalid = s.doutNvalid := rfl
@[simp] theorem State.present_doutCfg (d : Ports) (rest : List Event) : (s.present d rest).doutCfg = s.doutCfg := rfl
@[simp] theorem State.present_doutAddr (d : Ports) (rest : List Event) : (s.present d rest).doutAddr = s.doutAddr := rfl
@[simp] theorem State.present_doutHi (d : Ports) (rest : List Event) : (s.present d rest).doutHi = s.doutHi := rfl
@[simp] theorem State.present_target (d : Ports) (rest : List Event) : (s.present d rest).target = s.target := rfl
@[simp] theorem State.present_parser (d : Ports) (rest : List Event) : (s.present d rest).parser = s.parser := rfl
@[simp] theorem State.present_params (d : Ports) (rest : List Event) : (s.present d rest).params = s.params := rfl
@[simp] theorem State.present_din (d : Ports) (rest : List Event) : (s.present d rest).din = d := rfl
@[simp] theorem State.present_pending (d : Ports) (rest : List Event) : (s.present d rest).pending = rest := rfl

/-! ### `State.resetRegisters` -/

@[simp] theorem State.resetRegisters_status (rest : List Event) :
    (s.resetRegisters rest).status = (State.resetOf s.params).status := rfl
@[simp] theorem State.resetRegisters_flags (rest : List Event) :
    (s.resetRegisters rest).flags = (State.resetOf s.params).flags := rfl
@[simp] theorem State.resetRegisters_doutVal (rest : List Event) :
    (s.resetRegisters rest).doutVal = (State.resetOf s.params).doutVal := rfl
@[simp] theorem State.resetRegisters_doutLen (rest : List Event) :
    (s.resetRegisters rest).doutLen = (State.resetOf s.params).doutLen := rfl
@[simp] theorem State.resetRegisters_doutBytes (rest : List Event) :
    (s.resetRegisters rest).doutBytes = (State.resetOf s.params).doutBytes := rfl
@[simp] theorem State.resetRegisters_doutMask (rest : List Event) :
    (s.resetRegisters rest).doutMask = (State.resetOf s.params).doutMask := rfl
@[simp] theorem State.resetRegisters_doutVals (rest : List Event) :
    (s.resetRegisters rest).doutVals = (State.resetOf s.params).doutVals := rfl
@[simp] theorem State.resetRegisters_doutMasks (rest : List Event) :
    (s.resetRegisters rest).doutMasks = (State.resetOf s.params).doutMasks := rfl
@[simp] theorem State.resetRegisters_doutNvalid (rest : List Event) :
    (s.resetRegisters rest).doutNvalid = (State.resetOf s.params).doutNvalid := rfl
@[simp] theorem State.resetRegisters_doutCfg (rest : List Event) :
    (s.resetRegisters rest).doutCfg = (State.resetOf s.params).doutCfg := rfl
@[simp] theorem State.resetRegisters_doutAddr (rest : List Event) :
    (s.resetRegisters rest).doutAddr = (State.resetOf s.params).doutAddr := rfl
@[simp] theorem State.resetRegisters_doutHi (rest : List Event) :
    (s.resetRegisters rest).doutHi = (State.resetOf s.params).doutHi := rfl
@[simp] theorem State.resetRegisters_target (rest : List Event) :
    (s.resetRegisters rest).target = (State.resetOf s.params).target := rfl
@[simp] theorem State.resetRegisters_parser (rest : List Event) :
    (s.resetRegisters rest).parser = (State.resetOf s.params).parser := rfl
@[simp] theorem State.resetRegisters_params (rest : List Event) :
    (s.resetRegisters rest).params = s.params := rfl
@[simp] theorem State.resetRegisters_din (rest : List Event) :
    (s.resetRegisters rest).din = s.din := rfl
@[simp] theorem State.resetRegisters_pending (rest : List Event) :
    (s.resetRegisters rest).pending = rest := rfl

/-! ### `pinit` and `pend` -/

variable (p : Parser)

@[simp] theorem pinit_pst : (pinit p).pst = .scan := rfl
@[simp] theorem pinit_pclass : (pinit p).pclass = .pending := rfl
@[simp] theorem pinit_preason : (pinit p).preason = .none := rfl
@[simp] theorem pinit_pcode : (pinit p).pcode = 0x00#8 := rfl
@[simp] theorem pinit_prsn : (pinit p).prsn = 0x00#8 := rfl
@[simp] theorem pinit_pterm : (pinit p).pterm = false := rfl
@[simp] theorem pinit_plen : (pinit p).plen = 0 := rfl
@[simp] theorem pinit_pbuf : (pinit p).pbuf = p.pbuf := rfl

@[simp] theorem pend_pst : (pend p).pst = .done := rfl
@[simp] theorem pend_pclass : (pend p).pclass = (pendClass p.pst).getD p.pclass := rfl
@[simp] theorem pend_preason : (pend p).preason = p.preason := rfl
@[simp] theorem pend_pcode : (pend p).pcode = p.pcode := rfl
@[simp] theorem pend_prsn : (pend p).prsn = p.prsn := rfl
@[simp] theorem pend_pterm : (pend p).pterm = p.pterm := rfl
@[simp] theorem pend_plen : (pend p).plen = p.plen := rfl
@[simp] theorem pend_pbuf : (pend p).pbuf = p.pbuf := rfl

end Sys2Proof.Machine
end

