-- ==== Sys2Proof/Laws/Parser.lean ====
section
/-! SUPPORT. What the parser's functions do (spec/42_frame_codec.md R89 to R91), state by state, and what a run of bytes does in
SCAN, ACKP and DONE. -/

namespace Sys2Proof.Machine

variable {m : Nat} {p : Parser} {b : Byte} {bytes : List Byte}

theorem isTerm_iff (b : Byte) : isTerm b = true ↔ b = 0x0D#8 ∨ b = 0x0A#8 := by
  simp [isTerm, crByte, lfByte]

theorem pstep_of_scan (h : p.pst = .scan) : pstep m p b = pstepScan b p := by simp [pstep, h]
theorem pstep_of_ackp (h : p.pst = .ackp) : pstep m p b = pstepAckp m b p := by simp [pstep, h]
theorem pstep_of_nak1 (h : p.pst = .nak1) : pstep m p b = pstepNak1 b p := by simp [pstep, h]
theorem pstep_of_nak2 (h : p.pst = .nak2) : pstep m p b = pstepNak2 b p := by simp [pstep, h]
theorem pstep_of_nakt (h : p.pst = .nakt) : pstep m p b = pstepNakt b p := by simp [pstep, h]
theorem pstep_of_done (h : p.pst = .done) : pstep m p b = p := by simp [pstep, h]

/-- The payload buffer keeps its size. -/
@[simp] theorem length_pbuf_pstep : (pstep m p b).pbuf.length = p.pbuf.length := by
  cases h : p.pst
  · rw [pstep_of_scan h]; unfold pstepScan; split_ifs <;> rfl
  · rw [pstep_of_ackp h]; unfold pstepAckp; split_ifs <;> simp
  · rw [pstep_of_nak1 h]; unfold pstepNak1; split_ifs <;> rfl
  · rw [pstep_of_nak2 h]; unfold pstepNak2; split_ifs <;> rfl
  · rw [pstep_of_nakt h]; rfl
  · rw [pstep_of_done h]

/-- `PEND` in DONE changes nothing (R91). -/
theorem pend_of_done (h : p.pst = .done) : pend p = p := by
  cases p; cases h; rfl

/-- Bytes fed in DONE are ignored. -/
theorem foldl_pstep_done (h : p.pst = .done) : bytes.foldl (pstep m) p = p := by
  induction bytes with
  | nil => rfl
  | cons b bytes ih => rw [List.foldl_cons, pstep_of_done h, ih]

/-- Bytes that are neither ACK nor NAK are discarded in SCAN. -/
theorem foldl_pstep_scan (h : p.pst = .scan) (hb : ∀ b ∈ bytes, b ≠ ackByte ∧ b ≠ nakByte) :
    bytes.foldl (pstep m) p = p := by
  induction bytes with
  | nil => rfl
  | cons b bytes ih =>
    obtain ⟨h1, h2⟩ := hb b (by simp)
    rw [List.foldl_cons, pstep_of_scan h, pstepScan, if_neg h1, if_neg h2]
    exact ih fun c hc => hb c (by simp [hc])

/-- Payload bytes that fit are stored in order in ACKP. -/
theorem foldl_pstep_ackp (h : p.pst = .ackp) (hb : ∀ b ∈ bytes, isTerm b = false)
    (hm : p.plen + bytes.length ≤ m) (hl : p.plen + bytes.length ≤ p.pbuf.length) :
    bytes.foldl (pstep m) p =
      { p with
        pbuf := p.pbuf.take p.plen ++ bytes ++ p.pbuf.drop (p.plen + bytes.length)
        plen := p.plen + bytes.length } := by
  induction bytes generalizing p with
  | nil => simp
  | cons b bytes ih =>
    simp only [List.length_cons] at hm hl
    rw [List.foldl_cons, pstep_of_ackp h, pstepAckp, if_neg (by simp [hb b]), if_neg (by omega),
      ih (p := { p with pbuf := p.pbuf.set p.plen b, plen := p.plen + 1 }) h
        (fun c hc => hb c (by simp [hc])) (by simp; omega) (by simp; omega)]
    have hset : p.pbuf.set p.plen b = p.pbuf.take p.plen ++ b :: p.pbuf.drop (p.plen + 1) := by
      rw [List.set_eq_take_append_cons_drop, if_pos (by omega)]
    have htake : (p.pbuf.take p.plen).length = p.plen := by simp; omega
    have h1 : (p.pbuf.set p.plen b).take (p.plen + 1) = p.pbuf.take p.plen ++ [b] := by
      rw [hset, List.take_append, htake, List.take_take, show p.plen + 1 - p.plen = 1 by omega]
      simp
    have h2 : (p.pbuf.set p.plen b).drop (p.plen + 1 + bytes.length)
        = p.pbuf.drop (p.plen + (bytes.length + 1)) := by
      rw [List.drop_set_of_lt (by omega), show p.plen + 1 + bytes.length = p.plen + (bytes.length + 1) by omega]
    simp [h1, h2]; omega

end Sys2Proof.Machine
end

