-- ==== Sys2Proof/Laws/PerInstr.lean ====
section
/-! SUPPORT. Statements about every instruction as syntax, one lemma per constructor. -/

/-- The family: the word of an instruction passes the match and mask (0x800F) of its row of spec/opcode_table.json
(spec/30_encoding.md R55). -/
def Sys2Proof.Laws.EncodedMatch.Statement (i : Sys2Proof.Instr) : Prop :=
  Sys2Proof.opField (Sys2Proof.encode i) = i.opcode ∧ Sys2Proof.reservedBit (Sys2Proof.encode i) = false

namespace Sys2Proof.Laws.EncodedMatch

open Sys2Proof

theorem hexenc (width : Nat) : Statement (.hexenc width) := by simp [Statement, encode]
theorem hexdec (source : Source) : Statement (.hexdec source) := by simp [Statement, encode]
theorem hexdeca (source : Source) (count width : Nat) : Statement (.hexdeca source count width) := by
  simp [Statement, encode]
theorem cfgdec : Statement .cfgdec := by simp [Statement, encode]
theorem cfgenc : Statement .cfgenc := by simp [Statement, encode]
theorem settgt : Statement .settgt := by simp [Statement, encode]
theorem addrdec : Statement .addrdec := by simp [Statement, encode]
theorem frmbld (select : AddressSelect) : Statement (.frmbld select) := by simp [Statement, encode]
theorem prstart : Statement .prstart := by simp [Statement, encode]
theorem prbyte : Statement .prbyte := by simp [Statement, encode]
theorem prend : Statement .prend := by simp [Statement, encode]
theorem parse : Statement .parse := by simp [Statement, encode]

end Sys2Proof.Laws.EncodedMatch
end

