-- ==== Sys2Proof/Laws/Step.lean ====
section
/-! SUPPORT. What one step does with each kind of input, and what every operation leaves to the model's own fields. -/

namespace Sys2Proof.Machine

@[simp] theorem finish_eq (st : Status) (s : State) : finish st s = .next (s.setStatus st) := rfl

theorem step_of_reset {s : State} {rest : List Event} (h : s.pending = .reset :: rest) :
    step s = .next (s.resetRegisters rest) := by simp [step, h]

theorem step_of_request {s : State} {cw : ControlWord} {d : Ports} {rest : List Event}
    (h : s.pending = .request cw d :: rest) : step s = serve cw (s.present d rest) := by simp [step, h]

theorem serve_of_error {cw : ControlWord} {e : DecodeError} (h : decode cw = .error e) (s : State) :
    serve cw s = .next (s.setStatus .illegalOp) := by simp [serve, h, illegalRequest]

/-- Every operation ends by writing its status over a state whose parameters, ports and inputs to come are untouched. -/
theorem exec_ends (i : Instr) (s : State) :
    ∃ st s', exec i s = finish st s' ∧ s'.params = s.params ∧ s'.din = s.din ∧ s'.pending = s.pending := by
  cases i <;> simp only [exec]
  case hexenc => unfold execHexenc; split_ifs <;> exact ⟨_, _, rfl, rfl, rfl, rfl⟩
  case hexdec => unfold execHexdec; split_ifs <;> exact ⟨_, _, rfl, rfl, rfl, rfl⟩
  case hexdeca => unfold execHexdeca; split_ifs <;> exact ⟨_, _, rfl, rfl, rfl, rfl⟩
  case cfgdec => unfold execCfgdec; split_ifs <;> exact ⟨_, _, rfl, rfl, rfl, rfl⟩
  case cfgenc => unfold execCfgenc; split <;> exact ⟨_, _, rfl, rfl, rfl, rfl⟩
  case settgt => unfold execSettgt; split_ifs <;> exact ⟨_, _, rfl, rfl, rfl, rfl⟩
  case addrdec => unfold execAddrdec; split_ifs <;> exact ⟨_, _, rfl, rfl, rfl, rfl⟩
  case frmbld => unfold execFrmbld; split_ifs <;> exact ⟨_, _, rfl, rfl, rfl, rfl⟩
  case prstart => exact ⟨_, _, rfl, rfl, rfl, rfl⟩
  case prbyte => unfold execPrbyte; split_ifs <;> exact ⟨_, _, rfl, rfl, rfl, rfl⟩
  case prend => exact ⟨_, _, rfl, rfl, rfl, rfl⟩
  case parse => unfold execParse; split_ifs <;> exact ⟨_, _, rfl, rfl, rfl, rfl⟩

end Sys2Proof.Machine
end

