-- ==== Sys2Proof/Tests/Slice0.lean ====
section
/-! SUPPORT. The model's own tests: the well-formedness check refuses ill-formed terms; the decoder on words written out bit by
bit from spec/30_encoding.md R53 and R55; at most two cases per operation, their results from spec/95_test_vectors.md; and for
every statement with hypotheses a concrete state and operands that meet them, clause by clause. -/

namespace Sys2Proof.Tests

open Sys2Proof Sys2Proof.Machine

/-! ### Small states -/

/-- Bytes from numbers. -/
def bytesOf (ns : List Nat) : List Byte := ns.map (BitVec.ofNat 8)

/-- `n` bytes 0x41. -/
def manyA (n : Nat) : List Byte := List.replicate n 0x41

/-- Right after reset, with `DIN_VAL` driven to `v`. -/
def valState (v : Nat) : State := { State.reset with din := { Ports.zero with val := BitVec.ofNat 32 v } }

/-- Right after reset, with `DIN_LEN` and `DIN_BYTES` driven. -/
def strState (bs : List Byte) : State := { State.reset with din := { Ports.zero with len := bs.length, bytes := bs } }

/-- Right after reset, with only `DIN_LEN` driven. -/
def lenState (n : Nat) : State := { State.reset with din := { Ports.zero with len := n } }

/-- Right after reset, with the parser in state `p` and `DIN_VAL` driven to `v`. -/
def parserState (p : ParserState) (v : Nat) : State :=
  { valState v with parser := { State.reset.parser with pst := p } }

/-- `s` in a block built with the `IMPL` layout. -/
def impl (s : State) : State := { s with params := { s.params with layout := .impl } }

/-- What `f` reads in the next state; none if there is none. -/
def after {α : Type} (r : Result) (f : State → α) : Option α :=
  match r with
  | .next t => some (f t)
  | .fault _ => none
  | .refused _ => none

/-- A channel configuration from its fields. -/
def cfg (lp son hp : Bool) (a1 a2 : Nat) (dc : Bool) : ChannelConfig :=
  { lp := lp, son := son, hp := hp, a1 := BitVec.ofNat 6 a1, a2 := BitVec.ofNat 6 a2, dc := dc }

/-- The registers of the parser that name its verdict, as numbers: `PCLASS`, `PREASON`, `PCODE`, `PRSN`, `PTERM`, `PLEN`. -/
def verdict (s : State) : List Nat :=
  [s.parser.pclass.code.toNat, s.parser.preason.code.toNat, s.parser.pcode.toNat, s.parser.prsn.toNat,
    s.parser.pterm.toNat, s.parser.plen]

/-! ### Well-formedness refuses operands that no field holds (R53) -/

theorem test_wide_width_is_ill_formed : Instr.wellFormed (.hexenc 16) = false := by decide
theorem test_wide_array_width_is_ill_formed : Instr.wellFormed (.hexdeca .ports 16 16) = false := by decide
theorem test_wide_count_is_ill_formed : Instr.wellFormed (.hexdeca .payload 32 4) = false := by decide
theorem test_refused_operands_are_well_formed :
    WellFormed (.hexenc 0) ∧ WellFormed (.hexenc 15) ∧ WellFormed (.hexdeca .ports 31 9) := by decide

/-! ### Decoding, bits 15 to 0 (R53, R55): reserved, S, B, N, W, OP -/

theorem test_decode_hexenc : decode 0b0_0_0_00000_0100_0001 = .ok (.hexenc 4) := by rfl
theorem test_decode_hexdec : decode 0b0_1_0_00000_0000_0010 = .ok (.hexdec .payload) := by rfl
theorem test_decode_hexdeca : decode 0b0_1_0_10000_0100_0011 = .ok (.hexdeca .payload 16 4) := by rfl
theorem test_decode_hexdeca_fields_apart : decode 0b0_0_1_00001_1000_0011 = .ok (.hexdeca .ports 1 8) := by rfl
theorem test_decode_cfgdec : decode 0b0_0_0_00000_0000_0100 = .ok .cfgdec := by rfl
theorem test_decode_cfgenc : decode 0b0_0_0_00000_0000_0101 = .ok .cfgenc := by rfl
theorem test_decode_settgt : decode 0b0_0_0_00000_0000_0110 = .ok .settgt := by rfl
theorem test_decode_addrdec : decode 0b0_0_0_00000_0000_0111 = .ok .addrdec := by rfl
theorem test_decode_frmbld : decode 0b0_0_1_00000_0000_1000 = .ok (.frmbld .broadcast) := by rfl
theorem test_decode_frmbld_target : decode 0b0_1_0_11111_1111_1000 = .ok (.frmbld .target) := by rfl
theorem test_decode_prstart : decode 0b0_0_0_00000_0000_1001 = .ok .prstart := by rfl
theorem test_decode_prbyte : decode 0b0_0_0_00000_0000_1010 = .ok .prbyte := by rfl
theorem test_decode_prend : decode 0b0_0_0_00000_0000_1011 = .ok .prend := by rfl
theorem test_decode_parse : decode 0b0_0_0_00000_0000_1100 = .ok .parse := by rfl
theorem test_decode_reserved :
    decode 0b0_0_0_00000_0000_0000 = .error (.reservedOp 0) ∧ decode 0b0_0_0_00000_0000_1110 = .error (.reservedOp 14)
      ∧ decode 0b1_0_0_00000_0000_0001 = .error .reservedBit := ⟨rfl, rfl, rfl⟩

theorem test_table_word : decodeTableWord 16 0x5043 = some (.hexdeca .payload 16 4) ∧ decodeTableWord 16 0xFFFF = none :=
  ⟨rfl, rfl⟩

/-- A word placed for the next step is what the next step serves, as the first request after reset. -/
theorem test_placed_word_runs :
    step (State.reset.withFetchWord 16 0x000B) = exec .prend State.reset
      ∧ step (State.reset.withFetchWord 16 0x0006) = exec .settgt State.reset := ⟨rfl, rfl⟩

/-! ### Operations, results from spec/95_test_vectors.md sections 2 to 4 -/

/-- 2.1: `HEXENC W=8 DIN_VAL=0x0123ABCD` gives "0123ABCD". -/
theorem test_hexenc_letters :
    after (exec (.hexenc 8) (valState 0x0123ABCD)) (fun t => (t.status, t.doutLen, t.doutBytes.take 8))
      = some (.ok, 8, bytesOf [0x30, 0x31, 0x32, 0x33, 0x41, 0x42, 0x43, 0x44]) := by decide +kernel

/-- 2.1: `HEXENC W=3 DIN_VAL=0x1000` overflows. -/
theorem test_hexenc_overflow :
    after (exec (.hexenc 3) { valState 0x1000 with doutLen := 7 }) (fun t => (t.status, t.doutLen))
      = some (.hexOverflow, 0) := by decide +kernel

/-- 2.2: "AbCd" gives 0xA0C0, mask 0x0A. -/
theorem test_hexdec_lower_case :
    after (exec (.hexdec .ports) (strState (bytesOf [0x41, 0x62, 0x43, 0x64])))
        (fun t => (t.status, t.doutVal, t.doutMask, t.flags))
      = some (.invalidHex, 0xA0C0, 0x0A, 0b001) := by decide +kernel

/-- 2.2: after `PARSE 06 30 35 34 30 0D`, HEXDEC with `S = 1` gives 0x540. -/
theorem test_hexdec_payload :
    (after (exec .parse (strState (bytesOf [0x06, 0x30, 0x35, 0x34, 0x30, 0x0D])))
        (fun t => after (exec (.hexdec .payload) t) (fun u => (u.status, u.doutVal, u.doutMask))))
      = some (some (.ok, 0x540, 0)) := by decide +kernel

/-- 2.3: `N=4 W=3`, "12345678901Z". -/
theorem test_hexdeca_invalid :
    after (exec (.hexdeca .ports 4 3)
          (strState (bytesOf [0x31, 0x32, 0x33, 0x34, 0x35, 0x36, 0x37, 0x38, 0x39, 0x30, 0x31, 0x5A])))
        (fun t => (t.status, t.flags, t.doutNvalid, t.doutVals.toList.take 5, t.doutMasks.toList.take 5))
      = some (.invalidHex, 0b001, 4, [0x123, 0x456, 0x789, 0x010, 0], [0, 0, 0, 0x04, 0]) := by decide +kernel

/-- 2.3: `N=1 W=8`, "6553F1": a partial field is not decoded. -/
theorem test_hexdeca_truncated :
    after (exec (.hexdeca .ports 1 8) (strState (bytesOf [0x36, 0x35, 0x35, 0x33, 0x46, 0x31])))
        (fun t => (t.status, t.flags, t.doutNvalid, t.doutVals[0]))
      = some (.truncated, 0b010, 0, 0) := by decide +kernel

/-- 3.1: 0x8A50 under `ICD`. -/
theorem test_cfgdec_icd :
    after (exec .cfgdec (valState 0x8A50)) (fun t => (t.status, t.doutCfg))
      = some (.ok, cfg false true false 20 40 true) := by decide +kernel

/-- 3.1: 0x0100 under `IMPL`. -/
theorem test_cfgdec_impl :
    after (exec .cfgdec (impl (valState 0x0100))) (fun t => (t.status, t.doutCfg))
      = some (.ok, cfg false true false 1 32 false) := by decide +kernel

/-- 3.2: (1,0,1,63,0,1) gives 0x81FD. -/
theorem test_cfgenc_icd :
    after (exec .cfgenc { State.reset with din := { Ports.zero with cfg := cfg true false true 63 0 true } })
        (fun t => (t.status, t.doutVal))
      = some (.ok, 0x81FD) := by decide +kernel

/-- 3.2: `IMPL` is refused. -/
theorem test_cfgenc_impl :
    after (exec .cfgenc (impl (valState 0))) (fun t => t.status) = some .layoutUnsupported := by decide +kernel

/-- 4.1. -/
theorem test_settgt :
    after (exec .settgt (valState 127)) (fun t => (t.status, t.target)) = some (.ok, 127)
      ∧ after (exec .settgt { valState 128 with target := 127 }) (fun t => (t.status, t.target))
        = some (.badOperand, 127) := by decide +kernel

/-- 4.2. -/
theorem test_addrdec :
    after (exec .addrdec (valState 0x8D)) (fun t => (t.status, t.doutAddr, t.doutHi)) = some (.ok, 13, true) := by
  decide +kernel

/-- 4.3: `FRMBLD B=0 DIN_MNEM="GETC" DIN_BYTES="5"`, `TARGET = 2`. -/
theorem test_frmbld_getc :
    after (exec (.frmbld .target)
          { State.reset with
            target := 2, din := { Ports.zero with len := 1, bytes := [0x35], mnem := #v[0x47, 0x45, 0x54, 0x43] } })
        (fun t => (t.status, t.doutLen, t.doutBytes.take 7))
      = some (.ok, 7, bytesOf [0x82, 0x47, 0x45, 0x54, 0x43, 0x35, 0x0D]) := by decide +kernel

/-- 4.3: 65 argument bytes overflow. -/
theorem test_frmbld_overflow :
    after (exec (.frmbld .broadcast) (strState (manyA 65))) (fun t => (t.status, t.doutLen))
      = some (.bufOverflow, 0) := by decide +kernel

/-- 4.5: PRSTART mid-frame. -/
theorem test_prstart :
    after (exec .prstart (parserState .nak2 0)) (fun t => (t.status, t.parser.pst, t.parser.pclass))
      = some (.ok, .scan, .pending) := by decide +kernel

/-- 4.5: `PRBYTE DIN_VAL=0x15` after PRSTART. -/
theorem test_prbyte_nak :
    after (exec .prbyte (parserState .scan 0x15)) (fun t => (t.status, t.parser.pst, t.parser.pclass))
      = some (.ok, .nak1, .pending) := by decide +kernel

/-- Section 5, P3 step 5: the reason byte '2'. -/
theorem test_prbyte_reason :
    after (exec .prbyte (parserState .nak2 0x32)) (fun t => (t.status, t.parser.pst, t.parser.pclass, t.parser.preason))
      = some (.ok, .nakt, .nakFailed, .channelOutOfRange) := by decide +kernel

/-- 4.5: PREND after PRSTART. -/
theorem test_prend :
    after (exec .prend (parserState .scan 0)) (fun t => (t.status, t.parser.pst, t.parser.pclass))
      = some (.ok, .done, .noResponse) := by decide +kernel

/-- 4.4: `15 33 32 0D`. -/
theorem test_parse_nak :
    after (exec .parse (strState (bytesOf [0x15, 0x33, 0x32, 0x0D]))) verdict = some [4, 2, 0x33, 0x32, 1, 0] := by
  decide +kernel

/-- 4.4: `80 55 06 31 32 0D`. -/
theorem test_parse_ack :
    after (exec .parse (strState (bytesOf [0x80, 0x55, 0x06, 0x31, 0x32, 0x0D]))) (fun t => (verdict t, t.parser.payload))
      = some ([1, 0, 0, 0, 1, 2], bytesOf [0x31, 0x32]) := by decide +kernel

/-- 3.4: the last row of the `rev6` table begins 7, 39. -/
theorem test_rev6 : rev6 56 = 7 ∧ rev6 57 = 39 ∧ rev6 1 = 32 := by decide

/-! ### The statements' hypotheses are met -/

/-- A state that meets the invariant, its parser after the NAK code bytes '3' '2', its target 2, ports `d`. -/
def nakState (d : Ports) : State :=
  { State.reset with
    target := 2
    din := d
    parser := { State.reset.parser with
      pst := .nakt, pclass := .nakFailed, preason := .channelOutOfRange, pcode := 0x33, prsn := 0x32 } }

/-- A state that meets the invariant, its parser in the middle of an ACK payload, ports `d`. -/
def ackState (d : Ports) : State :=
  { State.reset with
    doutLen := 256, din := d
    parser := { State.reset.parser with pst := .ackp, plen := 128, pbuf := manyA 128 } }

/-- The invariant says nothing about the ports, so it is checked with one value of them. -/
theorem nakState_zero_inv : (nakState Ports.zero).Inv :=
  ⟨by decide, by decide +kernel, by decide, by decide, by decide +kernel, by decide +kernel, by decide,
    ⟨by decide, by decide, by decide, by decide⟩, by decide, by decide⟩

theorem nakState_inv (d : Ports) : (nakState d).Inv := nakState_zero_inv

theorem ackState_zero_inv : (ackState Ports.zero).Inv :=
  ⟨by decide, by decide +kernel, by decide, by decide, by decide +kernel, by decide +kernel, by decide,
    by decide, by decide, by decide, by decide, by decide⟩

theorem ackState_inv (d : Ports) : (ackState d).Inv := ackState_zero_inv

theorem test_meets_DecodeEncodeRoundTrip :
    WellFormed (.hexdeca .payload 31 15) ∧ WellFormed (.hexdeca .ports 0 0) ∧ WellFormed (.frmbld .broadcast) := by decide

theorem test_meets_EncodeKeepsUsedBits : decode 0x7FF3 = .ok (.hexdeca .payload 31 15) := rfl

theorem test_meets_IgnoredFieldsChangeNothing :
    decode 0x0041 = .ok (.hexenc 4)
      ∧ (0x7F41 : ControlWord) &&& Instr.usedBits (.hexenc 4) = 0x0041 &&& Instr.usedBits (.hexenc 4) := ⟨rfl, by decide⟩

/-- Each operation's match holds of a word and fails of its neighbour, at both ends of the `OP` range. -/
theorem test_meets_OperationSelectedByMatchAndMask :
    (0x7FF1 : ControlWord) &&& 0x800F = 0x0001 ∧ (0x7FFC : ControlWord) &&& 0x800F = 0x000C
      ∧ (0x8001 : ControlWord) &&& 0x800F ≠ 0x0001 ∧ (0x000D : ControlWord) &&& 0x800F ≠ 0x000C := by decide

/-- Every illegal `OP` and the reserved bit meet the first clause, the first and the last legal `OP` the second, and a state
with the request presented. -/
theorem test_meets_IllegalRequestWritesOnlyStatus :
    (0x7FF0#16).toNat % 16 = 0 ∧ (0x000D#16).toNat % 16 = 13 ∧ (0x000E#16).toNat % 16 = 14
      ∧ (0x000F#16).toNat % 16 = 15 ∧ (0x8001#16).getLsbD 15 = true
      ∧ ((0x7FF1#16).toNat % 16 = 1 ∧ (0x7FF1#16).getLsbD 15 = false)
      ∧ ((0x000C#16).toNat % 16 = 12 ∧ (0x000C#16).getLsbD 15 = false)
      ∧ ({ State.reset with pending := [.request 0x8001 Ports.zero] } : State).pending = [.request 0x8001 Ports.zero] :=
  ⟨rfl, rfl, rfl, rfl, rfl, ⟨rfl, rfl⟩, ⟨rfl, rfl⟩, rfl⟩

theorem test_meets_StepRunsDecodedRequest :
    (State.reset.withFetchWord 16 0x7FFC).pending = [.request 0x7FFC Ports.zero] ∧ decode 0x7FFC = .ok .parse := ⟨rfl, rfl⟩

theorem test_meets_WaitsForRequest : (valState 1).pending = [] := rfl

theorem test_meets_ResetSignalResetsEveryRegister :
    ∃ s : State, s.pending = [.reset] ∧ s.status = .truncated ∧ s.target = 127 :=
  ⟨{ State.reset with pending := [.reset], status := .truncated, target := 127 }, rfl, rfl, rfl⟩

theorem test_meets_StepKeepsInvariant :
    (nakState Ports.zero).Inv ∧ (ackState Ports.zero).Inv ∧ ∃ t, step (nakState Ports.zero) = .next t :=
  ⟨nakState_inv _, ackState_inv _, _, rfl⟩

theorem test_meets_RefusalChangesOnlyStatus :
    (∃ t, exec (.hexenc 9) (valState 0) = .next t ∧ t.status = .badOperand)
      ∧ ∃ t, exec .cfgenc (impl (valState 0)) = .next t ∧ t.status = .layoutUnsupported :=
  ⟨⟨_, rfl, rfl⟩, _, rfl, rfl⟩

theorem test_meets_StatusesOfEachOperation : ∃ t, exec .prstart (nakState Ports.zero) = .next t := ⟨_, rfl⟩

theorem test_meets_RegistersWrittenOnlyByTheirOperations :
    ∃ t, exec .settgt (valState 5) = .next t ∧ t.target ≠ (valState 5).target := ⟨_, rfl, by decide⟩

/-- Ports that differ in what HEXDEC does not read, the byte at `DIN_LEN` among it. -/
theorem test_meets_OnlyNamedPortsAreRead :
    SameReadPorts (.hexdec .ports) { Ports.zero with len := 1, bytes := [0x41, 0x42], val := 7 }
      { Ports.zero with len := 1, bytes := [0x41, 0x43], val := 8 } :=
  ⟨fun h => absurd h (by decide), fun _ => ⟨rfl, fun k hk => by
    obtain rfl : k = 0 := Nat.lt_one_iff.mp hk
    rfl⟩, fun h => absurd h (by decide), fun h => absurd h (by decide)⟩

/-- The three clauses at the ends of the width range. -/
theorem test_meets_HexencResult :
    ((0 < 1 ∨ 8 < 0) ∧ (9 < 1 ∨ 8 < 9))
      ∧ (16 ^ 1 ≤ (valState 16).din.val.toNat ∧ 16 ^ 7 ≤ (valState 0xFFFFFFFF).din.val.toNat)
      ∧ ((valState 15).din.val.toNat < 16 ^ 1 ∧ (valState 0xFFFFFFFF).din.val.toNat < 16 ^ 8) := by decide

/-- Lengths 0 and 9 are refused; lengths 1 and 8 run, with and without an invalid character. -/
theorem test_meets_HexdecResult :
    sourceLen .ports (strState []) = 0 ∧ sourceLen .ports (strState (manyA 9)) = 9
      ∧ sourceLen .ports (strState (manyA 1)) = 1 ∧ sourceLen .ports (strState (manyA 8)) = 8
      ∧ (∀ i, i < 8 → sourceChar .ports (strState (manyA 8)) i ∈ hexAlphabet)
      ∧ sourceChar .ports (strState (bytesOf [0x47])) 0 ∉ hexAlphabet := by decide

/-- The refusals at the ends of both ranges and of `MAX_BUF`; payloads shorter than, as long as and longer than `N*W`, with
and without an invalid character. -/
theorem test_meets_HexdecaResult :
    sourceLen .ports (lenState 256) ≤ (lenState 256).params.maxBuf
      ∧ (lenState 257).params.maxBuf < sourceLen .ports (lenState 257)
      ∧ sourceLen .payload (ackState Ports.zero) = 16 * 8
      ∧ sourceLen .ports (strState (manyA 7)) < 1 * 8 ∧ 1 * 1 < sourceLen .ports (strState (manyA 2))
      ∧ sourceLen .ports (strState (manyA 1)) = 1 * 1
      ∧ (∀ i, i < 1 → sourceChar .ports (strState (manyA 1)) i ∈ hexAlphabet)
      ∧ sourceChar .ports (strState (bytesOf [0x47])) 0 ∉ hexAlphabet := by decide +kernel

theorem test_meets_HexRoundTrip :
    (valState 0xFFFFFFFF).din.val.toNat < 16 ^ 8 ∧ (valState 15).din.val.toNat < 16 ^ 1 := by decide

/-- Two different states whose fields are "A", the bytes after the field different. -/
theorem test_meets_ValidFieldsAreInjective :
    ∃ t₁ t₂, exec (.hexdec .ports) (strState [0x41]) = .next t₁
      ∧ exec (.hexdec .ports) { strState [0x41] with din := { Ports.zero with len := 1, bytes := [0x41, 0x42] } } = .next t₂
      ∧ t₁.status = .ok ∧ t₂.status = .ok ∧ t₁.doutVal = t₂.doutVal :=
  ⟨_, _, rfl, rfl, by decide, by decide, by decide⟩

theorem test_meets_SingleFieldHexdecaAgreesWithHexdec :
    1 ≤ sourceLen .ports (strState (manyA 8)) ∧ sourceLen .ports (strState (manyA 8)) ≤ 8
      ∧ sourceLen .ports (strState (manyA 8)) ≤ (strState (manyA 8)).params.maxBuf := by decide

theorem test_meets_PayloadSourceEqualsCopiedPayload :
    (ackState Ports.zero).parser.plen ≤ (ackState Ports.zero).params.maxBuf := by decide

theorem test_meets_CfgdecResult :
    2 ^ 16 ≤ (valState 0x10000).din.val.toNat ∧ (valState 0xFFFF).din.val.toNat < 2 ^ 16
      ∧ (valState 0xFFFF).params.layout = .icd ∧ (impl (valState 0xFFFF)).params.layout = .impl := by decide

theorem test_meets_CfgencResult :
    (impl (valState 0)).params.layout = .impl ∧ (valState 0).params.layout = .icd := by decide

theorem test_meets_ConfigRoundTrip :
    (valState 0xFFFF).params.layout = .icd ∧ (valState 0xFFFF).din.val.toNat < 2 ^ 16 := by decide

/-- 0x0000 and 0xC000, spec/95_test_vectors.md section 3.1. -/
theorem test_meets_ImplLayoutHasNoEncoder :
    (impl (valState 0)).params.layout = .impl ∧ (valState 0).din.val.toNat % 2 ^ 14 = (0xC000 : Value).toNat % 2 ^ 14
      ∧ (∃ t, exec .cfgdec (impl (valState 0)) = .next t)
      ∧ ∃ t, exec .cfgdec { impl (valState 0) with din := { (impl (valState 0)).din with val := 0xC000 } } = .next t :=
  ⟨rfl, rfl, ⟨_, rfl⟩, _, rfl⟩

theorem test_meets_SettgtResult : 128 ≤ (valState 128).din.val.toNat ∧ (valState 127).din.val.toNat < 128 := by decide

theorem test_meets_AddrdecResult : 256 ≤ (valState 256).din.val.toNat ∧ (valState 255).din.val.toNat < 256 := by decide

/-- Lengths 257, 256, 65, 64 and 0. -/
theorem test_meets_FrmbldResult :
    (lenState 257).params.maxBuf < (lenState 257).din.len
      ∧ ((lenState 256).din.len ≤ (lenState 256).params.maxBuf ∧ (lenState 256).params.maxArgs < (lenState 256).din.len)
      ∧ (lenState 65).params.maxArgs < (lenState 65).din.len
      ∧ ((lenState 64).din.len ≤ (lenState 64).params.maxBuf ∧ (lenState 64).din.len ≤ (lenState 64).params.maxArgs)
      ∧ (lenState 0).din.len ≤ (lenState 0).params.maxArgs := by decide

theorem test_meets_AddressByteRoundTrip :
    (lenState 64).din.len ≤ (lenState 64).params.maxBuf ∧ (lenState 64).din.len ≤ (lenState 64).params.maxArgs := by decide

/-- Every row of the table has a state in its parser state and bytes at the ends of its range. -/
theorem test_meets_PrbyteResult :
    256 ≤ (valState 256).din.val.toNat
      ∧ (∀ p : ParserState, p ∈ [ParserState.scan, .ackp, .nak1, .nak2, .nakt, .done] →
        (parserState p 0xFF).parser.pst = p ∧ (parserState p 0xFF).din.val.toNat = (0xFF : Byte).toNat)
      ∧ (Terminator 0x0D ∧ Terminator 0x0A ∧ ¬Terminator 0x06 ∧ ¬Terminator 0x30 ∧ ¬Terminator 0x34 ∧ ¬Terminator 0x35)
      ∧ (ackState Ports.zero).parser.plen = (ackState Ports.zero).params.maxPayload
      ∧ (parserState .ackp 0x41).parser.plen ≠ (parserState .ackp 0x41).params.maxPayload
      ∧ (0x30 : Byte).toNat < 0x31 ∧ 0x33 < (0x34 : Byte).toNat ∧ 0x34 < (0x35 : Byte).toNat := by
  refine ⟨by decide, ?_, by decide, by decide, by decide, by decide⟩
  intro p _
  cases p <;> exact ⟨rfl, by decide⟩

theorem test_meets_PrendResult :
    ∀ p : ParserState, (parserState p 0).parser.pst = p := fun _ => rfl

theorem test_meets_ParseCompletesInDone :
    (lenState 257).params.maxBuf < (lenState 257).din.len ∧ (lenState 256).din.len ≤ (lenState 256).params.maxBuf := by
  decide

theorem test_meets_ParseEqualsByteStream :
    (lenState 256).din.len ≤ (lenState 256).params.maxBuf
      ∧ (strState (bytesOf [0x06, 0x0D])).din.len ≤ (strState (bytesOf [0x06, 0x0D])).params.maxBuf := by decide

/-- Two histories that differ in the parser and in `PBUF`, with one buffer. -/
theorem test_meets_ParseDependsOnlyOnItsBytes :
    let d : Ports := { Ports.zero with len := 3, bytes := [0x06, 0x41, 0x0D] }
    (nakState d).Inv ∧ (ackState d).Inv ∧ (nakState d).params = (ackState d).params
      ∧ (nakState d).din.string = (ackState d).din.string ∧ (nakState d).din.len ≤ (nakState d).params.maxBuf
      ∧ (∃ t, exec .parse (nakState d) = .next t) ∧ ∃ t, exec .parse (ackState d) = .next t :=
  ⟨nakState_inv _, ackState_inv _, rfl, rfl, by decide, ⟨_, rfl⟩, _, rfl⟩

/-- Leading bytes, a payload as long as `MAX_PAYLOAD`, then a terminator; and a bare ACK. -/
theorem test_meets_AckFrameParses :
    let d : Ports := { Ports.zero with len := 132, bytes := [0x80, 0x55, 0x06] ++ manyA 128 ++ [0x0A] }
    (nakState d).Inv ∧ (nakState d).din.len ≤ (nakState d).params.maxBuf
      ∧ (nakState d).din.string = bytesOf [0x80, 0x55] ++ 0x06 :: (manyA 128 ++ [0x0A])
      ∧ (∀ b ∈ bytesOf [0x80, 0x55], b ≠ 0x06 ∧ b ≠ 0x15) ∧ (∀ b ∈ manyA 128, ¬Terminator b)
      ∧ StartsWithTerminator [0x0A] ∧ (manyA 128).length ≤ (nakState d).params.maxPayload
      ∧ (strState [0x06]).din.string = [] ++ 0x06 :: ([] ++ []) := by
  refine ⟨nakState_inv _, by decide, by decide +kernel, by decide, ?_, ⟨_, _, rfl, by decide⟩, by decide +kernel, rfl⟩
  intro b hb
  rw [List.eq_of_mem_replicate hb]
  decide

/-- One byte more than `MAX_PAYLOAD`. -/
theorem test_meets_LongPayloadOverflows :
    let d : Ports := { Ports.zero with len := 130, bytes := 0x06 :: manyA 129 }
    (nakState d).Inv ∧ (nakState d).din.len ≤ (nakState d).params.maxBuf
      ∧ (nakState d).din.string = [] ++ 0x06 :: (manyA 129 ++ []) ∧ (∀ b ∈ manyA 129, ¬Terminator b)
      ∧ (nakState d).params.maxPayload < (manyA 129).length := by
  refine ⟨nakState_inv _, by decide, by decide +kernel, ?_, by decide +kernel⟩
  intro b hb
  rw [List.eq_of_mem_replicate hb]
  decide

/-- A NAK frame of every case: its bytes after the NAK byte meet the case and no case with another verdict. -/
theorem test_meets_NakFrameParses :
    (strState (bytesOf [0x15])).din.string = [] ++ 0x15 :: []
      ∧ (strState (bytesOf [0xFF, 0x15, 0x31])).din.string = [0xFF] ++ 0x15 :: [0x31]
      ∧ (strState (bytesOf [0x15, 0x32, 0x0D])).din.string = [] ++ 0x15 :: 0x32 :: [0x0D]
      ∧ (strState (bytesOf [0x15, 0x33])).din.string = [] ++ 0x15 :: [0x33]
      ∧ (strState (bytesOf [0x15, 0x33, 0x34, 0x0D])).din.string = [] ++ 0x15 :: 0x33 :: 0x34 :: [0x0D]
      ∧ (strState (bytesOf [0x15, 0x33, 0x0A])).din.string = [] ++ 0x15 :: 0x33 :: 0x0A :: []
      ∧ (strState (bytesOf [0x15, 0x33, 0x35, 0x0D])).din.string = [] ++ 0x15 :: 0x33 :: 0x35 :: [0x0D]
      ∧ (strState (bytesOf [0x15, 0x06, 0x0D])).din.string = [] ++ 0x15 :: 0x06 :: [0x0D]
      ∧ (strState (bytesOf [0x15, 0x34])).din.string = [] ++ 0x15 :: 0x34 :: []
      ∧ (∀ b ∈ [(0xFF : Byte)], b ≠ 0x06 ∧ b ≠ 0x15) := by decide

theorem test_meets_NoControlByteIsNoResponse :
    (strState []).din.string = [] ∧ ∀ b ∈ (strState (bytesOf [0x01, 0x02])).din.string, b ≠ 0x06 ∧ b ≠ 0x15 := by decide

theorem test_meets_VerdictIsFinal :
    (nakState { Ports.zero with val := 0x0D }).Inv ∧ (nakState { Ports.zero with val := 0x0D }).parser.pclass ≠ .pending
      ∧ (∃ t, exec .prbyte (nakState { Ports.zero with val := 0x0D }) = .next t)
      ∧ ∃ t, exec .prend (nakState { Ports.zero with val := 0x0D }) = .next t :=
  ⟨nakState_inv _, by decide, ⟨_, rfl⟩, _, rfl⟩

theorem test_meets_DoneIgnoresFurtherInput :
    (parserState .done 255).parser.pst = .done ∧ (parserState .done 255).din.val.toNat < 256 := by decide

end Sys2Proof.Tests
end

section
/-! PROOFS. The register values right after reset (spec/10_state.md R37), for an instance built with any parameters, and O10,
which is this hardware's instance of them. -/

namespace Sys2Proof.Machine

variable (p : BuildParams)

@[simp] theorem State.resetOf_doutBytes : (State.resetOf p).doutBytes = List.replicate p.maxBuf 0x00#8 := rfl
@[simp] theorem State.resetOf_params : (State.resetOf p).params = p := rfl
@[simp] theorem Parser.resetOf_pbuf (n : Nat) : (Parser.resetOf n).pbuf = List.replicate n 0x00#8 := rfl
@[simp] theorem State.resetOf_parser : (State.resetOf p).parser = Parser.resetOf p.maxPayload := rfl

@[simp] theorem State.resetOf_getElem_doutVals (k : Nat) (h : k < maxN) : (State.resetOf p).doutVals[k] = 0 :=
  Vector.getElem_replicate h

@[simp] theorem State.resetOf_getElem_doutMasks (k : Nat) (h : k < maxN) : (State.resetOf p).doutMasks[k] = 0 :=
  Vector.getElem_replicate h

/-- R37 holds of every instance: the registers of fixed size are 0 by definition, and those whose size is a parameter, and the
arrays, hold 0 at every index. -/
theorem State.resetOf_atReset : (State.resetOf p).AtReset := by
  have doutBytes_zero : ∀ b ∈ (State.resetOf p).doutBytes, b = 0x00#8 := fun _ => List.eq_of_mem_replicate
  have arrays_zero : ∀ k : Fin maxN, (State.resetOf p).doutVals[k] = 0 ∧ (State.resetOf p).doutMasks[k] = 0 := by simp
  have pbuf_zero : ∀ b ∈ (State.resetOf p).parser.pbuf, b = 0x00#8 := fun _ => List.eq_of_mem_replicate
  exact ⟨rfl, rfl, rfl, rfl, by simp, doutBytes_zero, rfl, arrays_zero, rfl, ⟨rfl, rfl, rfl, rfl, rfl, rfl⟩, rfl, rfl, rfl,
    rfl, rfl, rfl, rfl, rfl, rfl, rfl, by simp, pbuf_zero⟩

/-- Settles O10: R37 holds of an instance with any parameters, and `State.reset` is the instance with those of R8 and R9. -/
theorem resetRegisterValues : Obligations.ResetRegisterValues :=
  ⟨State.resetOf_atReset BuildParams.arxc, rfl⟩

end Sys2Proof.Machine
end

section
/-! PROOFS. R56 in the numbers of its own text: which words are illegal, what the step does with one, and O5. -/

namespace Sys2Proof

theorem toNat_opField (cw : ControlWord) : (opField cw).toNat = cw.toNat % 16 := by
  simp [opField, BitVec.extractLsb'_toNat]

theorem opField_eq_iff (cw : ControlWord) (op : BitVec 4) : opField cw = op ↔ cw.toNat % 16 = op.toNat := by
  rw [← toNat_opField, BitVec.toNat_inj]

/-- `decode_error_iff` with `OP` read as a number, as R56 writes it. -/
theorem decode_error_iff_toNat (cw : ControlWord) :
    (∃ e, decode cw = .error e) ↔
      cw.toNat % 16 = 0 ∨ cw.toNat % 16 = 13 ∨ cw.toNat % 16 = 14 ∨ cw.toNat % 16 = 15 ∨ cw.getLsbD 15 = true := by
  rw [decode_error_iff, or_comm]
  simp [opField_eq_iff, reservedBit, or_assoc]

/-- Decoding is total: a word that is not illegal is an operation. -/
theorem exists_decode_ok_of_not_error {cw : ControlWord} (h : ¬∃ e, decode cw = .error e) : ∃ i, decode cw = .ok i := by
  cases hd : decode cw with
  | error e => exact absurd ⟨e, hd⟩ h
  | ok i => exact ⟨i, rfl⟩

end Sys2Proof

namespace Sys2Proof.Machine

/-- An illegal request is taken from the inputs, its ports presented, and nothing else but STATUS written. -/
theorem step_of_illegal_request {s : State} {cw : ControlWord} {din : Ports} {rest : List Event} {e : DecodeError}
    (hd : decode cw = .error e) (hp : s.pending = .request cw din :: rest) :
    step s = .next ((s.present din rest).setStatus .illegalOp) := by
  rw [step_of_request hp, serve_of_error hd]

/-- Settles O5: the words it calls illegal are exactly those `decode` rejects (`decode_error_iff_toNat`), and a rejected
word's step writes STATUS alone. -/
theorem illegalRequestWritesOnlyStatus : Obligations.IllegalRequestWritesOnlyStatus := by
  intro cw s din rest
  constructor
  · intro hillegal hp
    obtain ⟨e, he⟩ := (decode_error_iff_toNat cw).mpr hillegal
    exact step_of_illegal_request he hp
  · intro hlegal
    exact exists_decode_ok_of_not_error (mt (decode_error_iff_toNat cw).mp hlegal)

end Sys2Proof.Machine
end

section
/-! PROOFS. HEXENC (spec/40_hex_codec.md R74): its answer in each of its three cases, the characters of an encoded field as
digits of the value, and O19. -/

namespace Sys2Proof.Machine

variable {w : Nat} {s : State}

/-! ### HEXENC's three cases -/

theorem exec_hexenc_of_illegal_width (h : ¬(1 ≤ w ∧ w ≤ 8)) : exec (.hexenc w) s = .next (s.setStatus .badOperand) := by
  simp [exec, execHexenc, mt (widthLegal_iff w).mp h]

theorem exec_hexenc_of_too_large (h1 : 1 ≤ w) (h8 : w ≤ 8) (hv : 16 ^ w ≤ s.din.val.toNat) :
    exec (.hexenc w) s = .next ((s.setDoutLen 0).setStatus .hexOverflow) := by
  simp [exec, execHexenc, (widthLegal_iff w).mpr ⟨h1, h8⟩, (hexTooLarge_iff w s.din.val h8).mpr hv]

theorem exec_hexenc_of_fits (h1 : 1 ≤ w) (h8 : w ≤ 8) (hv : s.din.val.toNat < 16 ^ w) :
    exec (.hexenc w) s = .next ((s.latchBytes (hexField w s.din.val)).setStatus .ok) := by
  simp [exec, execHexenc, (widthLegal_iff w).mpr ⟨h1, h8⟩, mt (hexTooLarge_iff w s.din.val h8).mp (Nat.not_le.mpr hv)]

/-! ### The characters of a field -/

/-- Four bits of a value from bit `4 * k` up are its digit of weight `16^k` (R11, R40). -/
theorem toNat_extractLsb'_digit (v : Value) (k : Nat) : (v.extractLsb' (4 * k) 4).toNat = v.toNat / 16 ^ k % 16 := by
  rw [BitVec.extractLsb'_toNat, Nat.shiftRight_eq_div_pow, pow_mul]; rfl

/-- Character `i` of a field is the alphabet's entry for the digit of weight `16^(w-1-i)` (R40, R58). -/
theorem getElem?_hexField_eq_hexAlphabet (v : Value) {i : Nat} (h : i < w) :
    (hexField w v)[i]? = hexAlphabet[v.toNat / 16 ^ (w - 1 - i) % 16]? := by
  rw [getElem?_hexField w v i h, ← hexAlphabet_getElem?, toNat_extractLsb'_digit]

/-- Settles O19: the refusals are HEXENC's first two cases; in the third, `DOUT_BYTES` is the field laid over the old bytes,
so its characters are read below index `w` and the old bytes from there on. -/
theorem hexencResult : Obligations.HexencResult := by
  intro w s
  refine ⟨fun hw => exec_hexenc_of_illegal_width (by omega), exec_hexenc_of_too_large, fun h1 h8 hv => ?_⟩
  refine ⟨_, exec_hexenc_of_fits h1 h8 hv, ?frame, fun i hi => ?written, fun i hi => ?kept⟩
  case frame => simp [State.setStatus, State.latchBytes]
  case written =>
    rw [State.setStatus_doutBytes, State.latchBytes_doutBytes, getElem?_overlay_lt _ _ _ (by simpa using hi),
      getElem?_hexField_eq_hexAlphabet _ hi]
  case kept =>
    rw [State.setStatus_doutBytes, State.latchBytes_doutBytes, getElem?_overlay_ge _ _ _ (by simpa using hi)]

end Sys2Proof.Machine
end

section
/-! PROOFS. The channel configuration codec (spec/41_channel_config.md): CFGDEC's and CFGENC's answers in each of their cases,
the bits of a decoded and of an encoded configuration word (R60 to R62), O26 and O27. -/

namespace Sys2Proof.Machine

variable {s : State}

/-! ### CFGDEC -/

theorem exec_cfgdec_of_too_large (h : 2 ^ 16 ≤ s.din.val.toNat) : exec .cfgdec s = .next (s.setStatus .badOperand) := by
  simp [exec, execCfgdec, mt (valueFits_iff 16 s.din.val).mp (Nat.not_lt.mpr h)]

theorem exec_cfgdec_of_fits (h : s.din.val.toNat < 2 ^ 16) :
    exec .cfgdec s =
      .next ((s.latchConfig (decodeConfig s.params.layout (s.din.val.extractLsb' 0 16))).setStatus .ok) := by
  simp [exec, execCfgdec, (valueFits_iff 16 s.din.val).mpr h]

/-- The configuration word is the low half of `DIN_VAL`, bit by bit. -/
theorem getLsbD_configWord (v : Value) {i : Nat} (h : i < 16) : (v.extractLsb' 0 16).getLsbD i = v.getLsbD i := by
  simp [h]

/-- An attenuator stored reversed in bits `lo + 5` to `lo` of a word (R62): its bit `i` is the word's bit `lo + 5 - i`. -/
theorem getLsbD_rev6_extractLsb' (w : ConfigWord) (lo : Nat) {i : Nat} (h : i < 6) :
    (rev6 (w.extractLsb' lo 6)).getLsbD i = w.getLsbD (lo + 5 - i) := by
  rw [BitVec.getLsbD_eq_getElem h, getElem_rev6 _ _ h, BitVec.getLsbD_extractLsb', show lo + (5 - i) = lo + 5 - i by omega]
  simp [show 5 - i < 6 by omega]

/-- Settles O26: the refusal and the completion are CFGDEC's two cases, and each field of the answer is read off the word's
bits, the attenuators through their reversal at bit 3, and at bit 9 or 8 as the layout says. -/
theorem cfgdecResult : Obligations.CfgdecResult := by
  intro s
  refine ⟨exec_cfgdec_of_too_large, fun hfits => ⟨_, exec_cfgdec_of_fits hfits, ?_⟩⟩
  simp only [State.setStatus_doutCfg, State.latchConfig_doutCfg]
  refine ⟨rfl, ?lp, ?son, ?hp, fun i hi => ?a1, fun hicd => ⟨fun i hi => ?a2_icd, ?dc_icd⟩,
    fun himpl => ⟨fun i hi => ?a2_impl, ?dc_impl⟩⟩
  case lp => exact getLsbD_configWord _ (by omega)
  case son =>
    simp only [decodeConfig, beq_iff_eq]
    rw [getLsbD_configWord _ (by omega), getLsbD_configWord _ (by omega)]
  case hp => exact getLsbD_configWord _ (by omega)
  case a1 => exact (getLsbD_rev6_extractLsb' _ 3 hi).trans (getLsbD_configWord _ (by omega))
  case a2_icd => rw [hicd]; exact (getLsbD_rev6_extractLsb' _ 9 hi).trans (getLsbD_configWord _ (by omega))
  case dc_icd => rw [hicd]; exact getLsbD_configWord _ (by omega)
  case a2_impl => rw [himpl]; exact (getLsbD_rev6_extractLsb' _ 8 hi).trans (getLsbD_configWord _ (by omega))
  case dc_impl => rw [himpl]; exact getLsbD_configWord _ (by omega)

/-! ### CFGENC -/

theorem exec_cfgenc_of_impl (h : s.params.layout = .impl) :
    exec .cfgenc s = .next (s.setStatus .layoutUnsupported) := by
  simp [exec, execCfgenc, h]

theorem exec_cfgenc_of_icd (h : s.params.layout = .icd) :
    exec .cfgenc s = .next ((s.latchValue ((encodeConfig s.din.cfg).setWidth 32)).setStatus .ok) := by
  simp [exec, execCfgenc, h]

/-- Zero extension keeps the bits of the encoded word. -/
theorem getLsbD_setWidth_encodeConfig (c : ChannelConfig) {i : Nat} (h : i < 16) :
    ((encodeConfig c).setWidth 32).getLsbD i = (encodeConfig c)[i] := by
  simp [show i < 32 by omega, h]

/-- Bit 1 of the word equals bit 0 exactly when the signal is on (R60). -/
theorem signalBit_eq_lp_iff (c : ChannelConfig) : signalBit c = c.lp ↔ c.son = true := by
  cases hson : c.son <;> simp [signalBit, hson]

/-- Settles O27: the refusal and the completion are CFGENC's two cases, and each bit of the word written is the one
`getElem_encodeConfig` gives at its position. -/
theorem cfgencResult : Obligations.CfgencResult := by
  intro s
  refine ⟨exec_cfgenc_of_impl, fun hicd => ⟨_, exec_cfgenc_of_icd hicd, ?_⟩⟩
  simp only [State.setStatus_doutVal, State.latchValue_doutVal]
  have bit (i : Nat) (hi : i < 16) :=
    (getLsbD_setWidth_encodeConfig s.din.cfg hi).trans (getElem_encodeConfig s.din.cfg i hi)
  refine ⟨rfl, bit 0 (by omega), ?son, bit 2 (by omega), fun i hi => ?a1, fun i hi => ?a2, bit 15 (by omega), ?high⟩
  case son =>
    rw [bit 0 (by omega), bit 1 (by omega)]
    exact signalBit_eq_lp_iff s.din.cfg
  case a1 =>
    rw [bit (8 - i) (by omega), if_neg (by omega), if_neg (by omega), if_neg (by omega), if_pos (by omega),
      show 8 - (8 - i) = i by omega]
  case a2 =>
    rw [bit (14 - i) (by omega), if_neg (by omega), if_neg (by omega), if_neg (by omega), if_neg (by omega),
      if_pos (by omega), show 14 - (14 - i) = i by omega]
  case high =>
    rw [BitVec.toNat_setWidth_of_le (by omega)]
    exact (encodeConfig s.din.cfg).isLt

end Sys2Proof.Machine
end

section
/-! PROOFS. Addressing and the command frame builder (spec/42_frame_codec.md R86 to R88): SETTGT's, ADDRDEC's and FRMBLD's
answers in each of their cases, the bytes of a command frame (R63), O30, O31 and O32. -/

namespace Sys2Proof.Machine

variable {s : State}

/-! ### SETTGT -/

theorem exec_settgt_of_too_large (h : 128 ≤ s.din.val.toNat) : exec .settgt s = .next (s.setStatus .badOperand) := by
  simp [exec, execSettgt, mt (valueFits_iff 7 s.din.val).mp (Nat.not_lt.mpr h)]

theorem exec_settgt_of_fits (h : s.din.val.toNat < 128) :
    exec .settgt s = .next ((s.setTarget (s.din.val.extractLsb' 0 7)).setStatus .ok) := by
  simp [exec, execSettgt, (valueFits_iff 7 s.din.val).mpr h]

/-- The low `n` bits of `DIN_VAL` as a number. -/
theorem toNat_extractLsb'_low (v : Value) (n : Nat) : (v.extractLsb' 0 n).toNat = v.toNat % 2 ^ n := by
  rw [BitVec.extractLsb'_toNat, Nat.shiftRight_zero]

/-- Settles O30: the refusal and the completion are SETTGT's two cases, and the low seven bits of a value below 128 are the
value. -/
theorem settgtResult : Obligations.SettgtResult := by
  intro s
  refine ⟨exec_settgt_of_too_large, fun hfits => ⟨_, exec_settgt_of_fits hfits, rfl, ?target⟩⟩
  case target =>
    rw [State.setStatus_target, State.setTarget_target, toNat_extractLsb'_low]
    exact Nat.mod_eq_of_lt hfits

/-! ### ADDRDEC -/

theorem exec_addrdec_of_too_large (h : 256 ≤ s.din.val.toNat) : exec .addrdec s = .next (s.setStatus .badOperand) := by
  simp [exec, execAddrdec, mt (valueFits_iff 8 s.din.val).mp (Nat.not_lt.mpr h)]

theorem exec_addrdec_of_fits (h : s.din.val.toNat < 256) :
    exec .addrdec s =
      .next ((s.latchAddress (s.din.val.extractLsb' 0 7) (s.din.val.getLsbD 7)).setStatus .ok) := by
  simp [exec, execAddrdec, (valueFits_iff 8 s.din.val).mpr h]

/-- Bit 7 of a byte is set exactly when the byte is at least 128. -/
theorem getLsbD_seven_iff {v : Value} (h : v.toNat < 256) : v.getLsbD 7 = true ↔ 128 ≤ v.toNat := by
  rw [BitVec.getLsbD, Nat.testBit_eq_decide_div_mod_eq, decide_eq_true_iff]
  omega

/-- Settles O31: the refusal and the completion are ADDRDEC's two cases; the address is the low seven bits and `DOUT_HI` is
bit 7. -/
theorem addrdecResult : Obligations.AddrdecResult := by
  intro s
  refine ⟨exec_addrdec_of_too_large, fun hfits => ⟨_, exec_addrdec_of_fits hfits, rfl, ?addr, ?hi⟩⟩
  case addr => exact toNat_extractLsb'_low s.din.val 7
  case hi => exact getLsbD_seven_iff hfits

/-! ### The bytes of a command frame -/

section CommandFrame

variable (a : BitVec 7) (mnem : Vector Byte 4) (args : List Byte)

/-- Bit 7 is set over the seven bits of the address (R63). -/
theorem toNat_addressByte : (addressByte a).toNat = 128 + a.toNat := by
  revert a; decide

@[simp] theorem length_commandFrame : (commandFrame a mnem args).length = args.length + 6 := by
  simp [commandFrame]; omega

theorem getElem?_commandFrame_address : (commandFrame a mnem args)[0]? = some (addressByte a) := rfl

theorem getElem?_commandFrame_mnem (i : Fin 4) : (commandFrame a mnem args)[1 + i.val]? = some mnem[i] := by
  have hi : i.val < mnem.toList.length := by simp
  rw [commandFrame, Nat.add_comm, List.getElem?_cons_succ, List.append_assoc, List.getElem?_append_left hi]
  simp

theorem getElem?_commandFrame_arg {i : Nat} (h : i < args.length) : (commandFrame a mnem args)[5 + i]? = args[i]? := by
  rw [commandFrame, show 5 + i = 4 + i + 1 by omega, List.getElem?_cons_succ, List.append_assoc,
    List.getElem?_append_right (by simp)]
  simp [List.getElem?_append_left h]

theorem getElem?_commandFrame_cr : (commandFrame a mnem args)[5 + args.length]? = some crByte := by
  simp [commandFrame, show 5 + args.length = 4 + args.length + 1 by omega]

end CommandFrame

/-! ### FRMBLD -/

theorem exec_frmbld_of_too_long (sel : AddressSelect) (h : s.params.maxBuf < s.din.len) :
    exec (.frmbld sel) s = .next (s.setStatus .badOperand) := by
  simp [exec, execFrmbld, h]

theorem exec_frmbld_of_args_too_long (sel : AddressSelect) (hbuf : s.din.len ≤ s.params.maxBuf)
    (hargs : s.params.maxArgs < s.din.len) :
    exec (.frmbld sel) s = .next ((s.setDoutLen 0).setStatus .bufOverflow) := by
  simp [exec, execFrmbld, Nat.not_lt.mpr hbuf, hargs]

theorem exec_frmbld_of_fits (sel : AddressSelect) (hbuf : s.din.len ≤ s.params.maxBuf)
    (hargs : s.din.len ≤ s.params.maxArgs) :
    exec (.frmbld sel) s =
      .next ((s.latchBytes (commandFrame (selectedAddress sel s) s.din.mnem s.din.string)).setStatus .ok) := by
  simp [exec, execFrmbld, Nat.not_lt.mpr hbuf, Nat.not_lt.mpr hargs]

@[simp] theorem Ports.length_string (d : Ports) : d.string.length = d.len := length_firstBytes d.len d.bytes

theorem Ports.getElem?_string (d : Ports) {i : Nat} (h : i < d.len) : d.string[i]? = some (d.bytes.getD i 0x00#8) :=
  getElem?_firstBytes d.len d.bytes i h

/-- Settles O32: the refusals are FRMBLD's first two cases; in the third, `DOUT_BYTES` is the command frame laid over the old
bytes, so below index `DIN_LEN + 6` each byte is the frame's and from there on it is the old one. -/
theorem frmbldResult : Obligations.FrmbldResult := by
  intro sel s
  refine ⟨exec_frmbld_of_too_long sel, exec_frmbld_of_args_too_long sel, fun hbuf hargs => ?_⟩
  refine ⟨_, exec_frmbld_of_fits sel hbuf hargs, ?frame, ?_⟩
  case frame => simp [State.setStatus, State.latchBytes]
  rw [State.setStatus_doutBytes, State.latchBytes_doutBytes]
  have hlen := length_commandFrame (selectedAddress sel s) s.din.mnem s.din.string
  rw [Ports.length_string] at hlen
  refine ⟨?address, fun i => ?mnem, fun i hi => ?arg, ?cr, fun i hi => ?kept⟩
  case address =>
    rw [getElem?_overlay_lt _ _ _ (by omega), getElem?_commandFrame_address, Option.map_some, toNat_addressByte]
    cases sel <;> rfl
  case mnem => rw [getElem?_overlay_lt _ _ _ (by omega), getElem?_commandFrame_mnem]
  case arg =>
    rw [getElem?_overlay_lt _ _ _ (by omega), getElem?_commandFrame_arg _ _ _ (by simpa using hi),
      Ports.getElem?_string _ hi]
  case cr =>
    rw [getElem?_overlay_lt _ _ _ (by omega), ← Ports.length_string, getElem?_commandFrame_cr, crByte]
  case kept => exact getElem?_overlay_ge _ _ _ (by omega)

end Sys2Proof.Machine
end

section
/-! PROOFS. PRSTART and PRBYTE (spec/42_frame_codec.md R93, R94): their answers, one lemma per row of R90's table in the
numbers of its own text, O34 and O35. -/

namespace Sys2Proof.Machine

variable {s : State} {m : Nat} {p : Parser} {b : Byte}

/-! ### PRSTART -/

theorem exec_prstart (s : State) : exec .prstart s = .next ((s.setParser (pinit s.parser)).setStatus .ok) := rfl

/-- Settles O34: PRSTART's one answer writes PINIT's registers, of which `PBUF` is not one. -/
theorem prstartResult : Obligations.PrstartResult := by
  intro s
  exact ⟨_, exec_prstart s, rfl, rfl, rfl, rfl, pinit_pcode _, pinit_prsn _, pinit_pterm _, pinit_plen _, pinit_pbuf _⟩

/-! ### The rows of R90's table -/

theorem pstep_scan_ack (h : p.pst = .scan) (hb : b = ackByte) : pstep m p b = { p with pst := .ackp } := by
  rw [pstep_of_scan h, pstepScan, if_pos hb]

theorem pstep_scan_nak (h : p.pst = .scan) (hb : b = nakByte) : pstep m p b = { p with pst := .nak1 } := by
  subst hb
  rw [pstep_of_scan h, pstepScan, if_neg (by decide), if_pos rfl]

theorem pstep_scan_other (h : p.pst = .scan) (hack : b ≠ ackByte) (hnak : b ≠ nakByte) : pstep m p b = p := by
  rw [pstep_of_scan h, pstepScan, if_neg hack, if_neg hnak]

theorem pstep_ackp_term (h : p.pst = .ackp) (hb : Terminator b) :
    pstep m p b = { p with pterm := true, pclass := .ack, pst := .done } := by
  rw [pstep_of_ackp h, pstepAckp, if_pos ((isTerm_iff b).mpr hb)]

theorem pstep_ackp_full (h : p.pst = .ackp) (hb : ¬Terminator b) (hfull : p.plen = m) :
    pstep m p b = { p with pclass := .payloadOverflow, pst := .done } := by
  rw [pstep_of_ackp h, pstepAckp, if_neg (mt (isTerm_iff b).mp hb), if_pos hfull]

theorem pstep_ackp_store (h : p.pst = .ackp) (hb : ¬Terminator b) (hroom : p.plen ≠ m) :
    pstep m p b = { p with pbuf := p.pbuf.set p.plen b, plen := p.plen + 1 } := by
  rw [pstep_of_ackp h, pstepAckp, if_neg (mt (isTerm_iff b).mp hb), if_neg hroom]

theorem pstep_nak1_one (h : p.pst = .nak1) (hb : b = 0x31#8) :
    pstep m p b = { p with pcode := b, pclass := .nakNotRecognized, pst := .nakt } := by
  rw [pstep_of_nak1 h, pstepNak1, if_pos hb]

theorem pstep_nak1_two (h : p.pst = .nak1) (hb : b = 0x32#8) :
    pstep m p b = { p with pcode := b, pclass := .nakTooLong, pst := .nakt } := by
  subst hb
  rw [pstep_of_nak1 h, pstepNak1, if_neg (by decide), if_pos rfl]

theorem pstep_nak1_three (h : p.pst = .nak1) (hb : b = 0x33#8) :
    pstep m p b = { p with pcode := b, pst := .nak2 } := by
  subst hb
  rw [pstep_of_nak1 h, pstepNak1, if_neg (by decide), if_neg (by decide), if_pos rfl]

/-- NAK1's three codes apart, a byte is taken as a terminator or as malformed. -/
theorem pstep_nak1_no_code (h : p.pst = .nak1) (hb : b.toNat < 0x31 ∨ 0x33 < b.toNat) :
    pstep m p b =
      if isTerm b then { p with pcode := b, pclass := .malformedNak, pterm := true, pst := .done }
      else { p with pcode := b, pclass := .malformedNak, pst := .nakt } := by
  rw [pstep_of_nak1 h, pstepNak1, if_neg (by bv_omega), if_neg (by bv_omega), if_neg (by bv_omega)]

/-- CR and LF lie below the digits. -/
theorem Terminator.toNat_lt (hb : Terminator b) : b.toNat < 0x31 := by
  obtain rfl | rfl := hb <;> decide

theorem pstep_nak1_term (h : p.pst = .nak1) (hb : Terminator b) :
    pstep m p b = { p with pcode := b, pclass := .malformedNak, pterm := true, pst := .done } := by
  rw [pstep_nak1_no_code h (.inl hb.toNat_lt), if_pos ((isTerm_iff b).mpr hb)]

theorem pstep_nak1_other (h : p.pst = .nak1) (hb : b.toNat < 0x31 ∨ 0x33 < b.toNat) (ht : ¬Terminator b) :
    pstep m p b = { p with pcode := b, pclass := .malformedNak, pst := .nakt } := by
  rw [pstep_nak1_no_code h hb, if_neg (mt (isTerm_iff b).mp ht)]

theorem isReasonByte_iff (b : Byte) : isReasonByte b = true ↔ 0x31 ≤ b.toNat ∧ b.toNat ≤ 0x34 := by
  simp [isReasonByte, BitVec.le_def]

/-- A reason byte is the character of its reason's code (R69). -/
theorem toNat_code_reasonOf (h1 : 0x31 ≤ b.toNat) (h4 : b.toNat ≤ 0x34) : (reasonOf b).code.toNat = b.toNat - 0x30 := by
  have hcases : b = 0x31#8 ∨ b = 0x32#8 ∨ b = 0x33#8 ∨ b = 0x34#8 := by bv_omega
  obtain rfl | rfl | rfl | rfl := hcases <;> rfl

theorem pstep_nak2_term (h : p.pst = .nak2) (hb : Terminator b) :
    pstep m p b = { p with prsn := b, pclass := .malformedNak, pterm := true, pst := .done } := by
  rw [pstep_of_nak2 h, pstepNak2, if_pos ((isTerm_iff b).mpr hb)]

theorem pstep_nak2_reason (h : p.pst = .nak2) (h1 : 0x31 ≤ b.toNat) (h4 : b.toNat ≤ 0x34) :
    pstep m p b = { p with prsn := b, pclass := .nakFailed, preason := reasonOf b, pst := .nakt } := by
  have ht : ¬Terminator b := fun ht => absurd ht.toNat_lt (by omega)
  rw [pstep_of_nak2 h, pstepNak2, if_neg (mt (isTerm_iff b).mp ht), if_pos ((isReasonByte_iff b).mpr ⟨h1, h4⟩)]

theorem pstep_nak2_other (h : p.pst = .nak2) (hb : b.toNat < 0x31 ∨ 0x34 < b.toNat) (ht : ¬Terminator b) :
    pstep m p b = { p with prsn := b, pclass := .nakUnknownReason, pst := .nakt } := by
  have hreason : ¬isReasonByte b = true := mt (isReasonByte_iff b).mp (by omega)
  rw [pstep_of_nak2 h, pstepNak2, if_neg (mt (isTerm_iff b).mp ht), if_neg hreason]

/-! ### PRBYTE -/

theorem exec_prbyte_of_too_large (h : 256 ≤ s.din.val.toNat) : exec .prbyte s = .next (s.setStatus .badOperand) := by
  simp [exec, execPrbyte, mt (valueFits_iff 8 s.din.val).mp (Nat.not_lt.mpr h)]

theorem exec_prbyte_of_byte (h : s.din.val.toNat = b.toNat) :
    exec .prbyte s = .next ((s.setParser (pstep s.params.maxPayload s.parser b)).setStatus .ok) := by
  have hfits : s.din.val.toNat < 2 ^ 8 := h ▸ b.isLt
  have hbyte : s.din.val.extractLsb' 0 8 = b := by
    rw [← BitVec.toNat_inj, toNat_extractLsb'_low, Nat.mod_eq_of_lt hfits, h]
  simp [exec, execPrbyte, (valueFits_iff 8 s.din.val).mpr hfits, hbyte]

/-- Settles O35: PRBYTE of a byte writes what `pstep` makes of the parser, and each row of R90's table is the lemma of its
state and its kind of byte. -/
theorem prbyteResult : Obligations.PrbyteResult := by
  intro s
  refine ⟨exec_prbyte_of_too_large, fun b hb => ⟨_, exec_prbyte_of_byte hb, pstep_scan_ack, pstep_scan_nak,
    pstep_scan_other, pstep_ackp_term, pstep_ackp_full, pstep_ackp_store, pstep_nak1_one, pstep_nak1_two,
    pstep_nak1_three, pstep_nak1_term, pstep_nak1_other, pstep_nak2_term, fun h h1 h4 => ?nak2_reason, pstep_nak2_other,
    fun h => ?nakt, pstep_of_done⟩⟩
  case nak2_reason =>
    rw [pstep_nak2_reason h h1 h4]
    exact ⟨rfl, toNat_code_reasonOf h1 h4⟩
  case nakt =>
    rw [pstep_of_nakt h]
    exact ⟨isTerm_iff b, rfl⟩

end Sys2Proof.Machine
end

section
/-! PROOFS. Control words by their fields (spec/30_encoding.md R53): a word is its six fields, masking a word masks its fields,
and an operation is decoded exactly where `OP`, the reserved bit and the fields it uses say so; O1, O2, O4 and O6. -/

namespace Sys2Proof

/-! ### A control word is its fields -/

/-- Two control words with the same six fields are one word (R53). -/
theorem controlWord_ext {a b : ControlWord} (hop : opField a = opField b) (hwidth : widthField a = widthField b)
    (hcount : countField a = countField b) (hbroadcast : broadcastBit a = broadcastBit b)
    (hsource : sourceBit a = sourceBit b) (hreserved : reservedBit a = reservedBit b) : a = b := by
  have bit {n : Nat} {x y : BitVec n} (h : x = y) (i : Nat) : x.getLsbD i = y.getLsbD i := by rw [h]
  refine BitVec.eq_of_getLsbD_eq fun i hi => ?_
  rcases (by omega : i < 4 ∨ (4 ≤ i ∧ i < 8) ∨ (8 ≤ i ∧ i < 13) ∨ i = 13 ∨ i = 14 ∨ i = 15) with
    h | ⟨h, h'⟩ | ⟨h, h'⟩ | rfl | rfl | rfl
  · simpa [opField, h] using bit hop i
  · simpa [widthField, show i - 4 < 4 by omega, Nat.add_sub_cancel' h] using bit hwidth (i - 4)
  · simpa [countField, show i - 8 < 5 by omega, Nat.add_sub_cancel' h] using bit hcount (i - 8)
  · exact hbroadcast
  · exact hsource
  · exact hreserved

section Masking

variable (a m : ControlWord)

@[simp] theorem opField_and : opField (a &&& m) = opField a &&& opField m := BitVec.extractLsb'_and
@[simp] theorem widthField_and : widthField (a &&& m) = widthField a &&& widthField m := BitVec.extractLsb'_and
@[simp] theorem countField_and : countField (a &&& m) = countField a &&& countField m := BitVec.extractLsb'_and
@[simp] theorem broadcastBit_and : broadcastBit (a &&& m) = (broadcastBit a && broadcastBit m) := BitVec.getLsbD_and
@[simp] theorem sourceBit_and : sourceBit (a &&& m) = (sourceBit a && sourceBit m) := BitVec.getLsbD_and
@[simp] theorem reservedBit_and : reservedBit (a &&& m) = (reservedBit a && reservedBit m) := BitVec.getLsbD_and

end Masking

/-! ### What a word decodes to -/

/-- The operands of `i` are the fields of `cw` that R55 gives it. -/
def Instr.OperandsOf (cw : ControlWord) : Instr → Prop
  | .hexenc width => width = (widthField cw).toNat
  | .hexdec source => source = sourceOfBit (sourceBit cw)
  | .hexdeca source count width =>
    source = sourceOfBit (sourceBit cw) ∧ count = (countField cw).toNat ∧ width = (widthField cw).toNat
  | .frmbld select => select = addressOfBit (broadcastBit cw)
  | .cfgdec | .cfgenc | .settgt | .addrdec | .prstart | .prbyte | .prend | .parse => True

/-- A word decodes to an operation exactly when its reserved bit is 0, its `OP` is the operation's, and its fields are the
operation's operands (R55). -/
theorem decode_eq_ok_iff (cw : ControlWord) (i : Instr) :
    decode cw = .ok i ↔ reservedBit cw = false ∧ opField cw = i.opcode ∧ i.OperandsOf cw := by
  constructor
  · intro h
    unfold decode at h
    split at h
    · cases h
    next hr =>
      refine ⟨by simpa using hr, ?_⟩
      split at h <;> cases h <;> simp_all [Instr.opcode, Instr.OperandsOf]
  · rintro ⟨hr, hop, hfields⟩
    cases i <;> simp_all [decode, Instr.opcode, Instr.OperandsOf]

theorem wellFormed_hexenc_iff (width : Nat) : WellFormed (.hexenc width) ↔ width < 16 := by
  simp [WellFormed, Instr.wellFormed, widthFits]

theorem wellFormed_hexdeca_iff (source : Source) (count width : Nat) :
    WellFormed (.hexdeca source count width) ↔ count < 32 ∧ width < 16 := by
  simp [WellFormed, Instr.wellFormed, widthFits, countFits]

/-- Settles O1: the encoded word has the operation's `OP` and reserved bit 0, and a field read back from it is the operand,
since a well-formed operand fits its field. -/
theorem decodeEncodeRoundTrip : Obligations.DecodeEncodeRoundTrip := by
  intro i hwf
  rw [decode_eq_ok_iff]
  cases i with
  | hexenc width =>
    have hw := (wellFormed_hexenc_iff width).mp hwf
    simp [encode, Instr.OperandsOf, Nat.mod_eq_of_lt hw]
  | hexdeca source count width =>
    obtain ⟨hn, hw⟩ := (wellFormed_hexdeca_iff source count width).mp hwf
    simp [encode, Instr.OperandsOf, Nat.mod_eq_of_lt hn, Nat.mod_eq_of_lt hw]
  | _ => simp [encode, Instr.OperandsOf]

/-! ### The used bits -/

/-- `W` in the five patterns of used bits. -/
theorem widthField_masks :
    widthField 0x80FF#16 = 15#4 ∧ widthField 0xC00F#16 = 0#4 ∧ widthField 0xDFFF#16 = 15#4 ∧ widthField 0x800F#16 = 0#4
      ∧ widthField 0xA00F#16 = 0#4 := by decide

/-- `N` in the five patterns of used bits. -/
theorem countField_masks :
    countField 0x80FF#16 = 0#5 ∧ countField 0xC00F#16 = 0#5 ∧ countField 0xDFFF#16 = 31#5 ∧ countField 0x800F#16 = 0#5
      ∧ countField 0xA00F#16 = 0#5 := by decide

/-- `B` in the five patterns of used bits. -/
theorem broadcastBit_masks :
    broadcastBit 0x80FF#16 = false ∧ broadcastBit 0xC00F#16 = false ∧ broadcastBit 0xDFFF#16 = false
      ∧ broadcastBit 0x800F#16 = false ∧ broadcastBit 0xA00F#16 = true := by decide

/-- `S` in the five patterns of used bits. -/
theorem sourceBit_masks :
    sourceBit 0x80FF#16 = false ∧ sourceBit 0xC00F#16 = true ∧ sourceBit 0xDFFF#16 = true
      ∧ sourceBit 0x800F#16 = false ∧ sourceBit 0xA00F#16 = false := by decide

@[simp] theorem and_fifteen (x : BitVec 4) : x &&& 15#4 = x := BitVec.and_allOnes

@[simp] theorem and_thirtyOne (x : BitVec 5) : x &&& 31#5 = x := BitVec.and_allOnes

/-- Every operation uses `OP`. -/
@[simp] theorem opField_usedBits (i : Instr) : opField i.usedBits = 15#4 := by
  cases i <;> simp [Instr.usedBits, opField]

/-- Every operation uses the reserved bit. -/
@[simp] theorem reservedBit_usedBits (i : Instr) : reservedBit i.usedBits = true := by
  cases i <;> simp [Instr.usedBits, reservedBit]

/-- Clearing the bits an operation ignores leaves its operands as they are. -/
theorem Instr.operandsOf_and_usedBits (cw : ControlWord) (i : Instr) :
    i.OperandsOf (cw &&& i.usedBits) ↔ i.OperandsOf cw := by
  cases i <;> simp [OperandsOf, usedBits, widthField_masks, countField_masks, broadcastBit_masks, sourceBit_masks]

/-- An operation is decoded from the bits it uses alone. -/
theorem decode_and_usedBits (cw : ControlWord) (i : Instr) : decode (cw &&& i.usedBits) = .ok i ↔ decode cw = .ok i := by
  simp [decode_eq_ok_iff, Instr.operandsOf_and_usedBits]

section EncodedFields

variable {cw : ControlWord} {i : Instr}

@[simp] theorem opField_encode (i : Instr) : opField (encode i) = i.opcode := by cases i <;> simp [encode]

@[simp] theorem reservedBit_encode (i : Instr) : reservedBit (encode i) = false := by cases i <;> simp [encode]

theorem widthField_encode (h : i.OperandsOf cw) : widthField (encode i) = widthField (cw &&& i.usedBits) := by
  cases i <;> simp_all [encode, Instr.OperandsOf, Instr.usedBits, widthField_masks]

theorem countField_encode (h : i.OperandsOf cw) : countField (encode i) = countField (cw &&& i.usedBits) := by
  cases i <;> simp_all [encode, Instr.OperandsOf, Instr.usedBits, countField_masks]

theorem broadcastBit_encode (h : i.OperandsOf cw) : broadcastBit (encode i) = broadcastBit (cw &&& i.usedBits) := by
  cases i <;> simp_all [encode, Instr.OperandsOf, Instr.usedBits, broadcastBit_masks]

theorem sourceBit_encode (h : i.OperandsOf cw) : sourceBit (encode i) = sourceBit (cw &&& i.usedBits) := by
  cases i <;> simp_all [encode, Instr.OperandsOf, Instr.usedBits, sourceBit_masks]

/-- Operands read from the fields of a word fit those fields. -/
theorem wellFormed_of_operandsOf (h : i.OperandsOf cw) : WellFormed i := by
  cases i with
  | hexenc width =>
    obtain rfl := h
    exact (wellFormed_hexenc_iff _).mpr (widthField cw).isLt
  | hexdeca source count width =>
    obtain ⟨-, rfl, rfl⟩ := h
    exact (wellFormed_hexdeca_iff _ _ _).mpr ⟨(countField cw).isLt, (widthField cw).isLt⟩
  | _ => rfl

end EncodedFields

/-- Settles O2: the operands decoded are fields, so they fit, and field by field the encoded word is the word masked with the
operation's used bits. -/
theorem encodeKeepsUsedBits : Obligations.EncodeKeepsUsedBits := by
  intro cw i h
  obtain ⟨hr, hop, hfields⟩ := (decode_eq_ok_iff cw i).mp h
  exact ⟨wellFormed_of_operandsOf hfields, controlWord_ext (by simp [hop]) (widthField_encode hfields)
    (countField_encode hfields) (broadcastBit_encode hfields) (sourceBit_encode hfields) (by simp [hr])⟩

/-! ### Match and mask -/

/-- A word matches an operation's row under R55's mask exactly when its `OP` is the operation's and its reserved bit is 0. -/
theorem and_matchMask_eq_iff (cw : ControlWord) (op : BitVec 4) :
    cw &&& 0x800F#16 = controlWord op 0 0 false false ↔ reservedBit cw = false ∧ opField cw = op := by
  have hop : opField 0x800F#16 = 15#4 := by decide
  have hreserved : reservedBit 0x800F#16 = true := by decide
  constructor
  · intro h
    exact ⟨by simpa [hreserved] using congrArg reservedBit h, by simpa [hop] using congrArg opField h⟩
  · rintro ⟨hr, rfl⟩
    apply controlWord_ext <;>
      simp [hop, hreserved, hr, widthField_masks, countField_masks, broadcastBit_masks, sourceBit_masks]

/-- The row of an operation: with its operands read from the word, it is decoded exactly when the word matches. -/
theorem decode_eq_ok_iff_match {cw word : ControlWord} {i : Instr} (op : BitVec 4) (hop : i.opcode = op)
    (hword : controlWord op 0 0 false false = word) (hfields : i.OperandsOf cw) :
    decode cw = .ok i ↔ cw &&& 0x800F#16 = word := by
  rw [decode_eq_ok_iff, ← hword, and_matchMask_eq_iff, hop]
  simp [hfields]

theorem toNat_widthField (cw : ControlWord) : (widthField cw).toNat = cw.toNat / 2 ^ 4 % 2 ^ 4 := by
  rw [widthField, BitVec.extractLsb'_toNat, Nat.shiftRight_eq_div_pow]

theorem toNat_countField (cw : ControlWord) : (countField cw).toNat = cw.toNat / 2 ^ 8 % 2 ^ 5 := by
  rw [countField, BitVec.extractLsb'_toNat, Nat.shiftRight_eq_div_pow]

theorem addressOfBit_decide (P : Prop) [Decidable P] :
    addressOfBit (decide P) = if P then .broadcast else .target := by
  by_cases h : P <;> simp [h, addressOfBit]

theorem sourceOfBit_decide (P : Prop) [Decidable P] : sourceOfBit (decide P) = if P then .payload else .ports := by
  by_cases h : P <;> simp [h, sourceOfBit]

theorem addressOfBit_broadcastBit (cw : ControlWord) :
    addressOfBit (broadcastBit cw) = if cw.toNat / 2 ^ 13 % 2 = 1 then .broadcast else .target := by
  rw [broadcastBit, BitVec.getLsbD, Nat.testBit_eq_decide_div_mod_eq, addressOfBit_decide]

theorem sourceOfBit_sourceBit (cw : ControlWord) :
    sourceOfBit (sourceBit cw) = if cw.toNat / 2 ^ 14 % 2 = 1 then .payload else .ports := by
  rw [sourceBit, BitVec.getLsbD, Nat.testBit_eq_decide_div_mod_eq, sourceOfBit_decide]

/-- Settles O4: each clause is its operation's row, the operands being the fields' values as numbers. -/
theorem operationSelectedByMatchAndMask : Obligations.OperationSelectedByMatchAndMask := by
  intro cw
  have hw := (toNat_widthField cw).symm
  have hn := (toNat_countField cw).symm
  have hb := (addressOfBit_broadcastBit cw).symm
  have hs := (sourceOfBit_sourceBit cw).symm
  exact ⟨decode_eq_ok_iff_match 0x1#4 rfl (by decide) hw,
    decode_eq_ok_iff_match 0x2#4 rfl (by decide) hs,
    decode_eq_ok_iff_match 0x3#4 rfl (by decide) ⟨hs, hn, hw⟩,
    decode_eq_ok_iff_match 0x4#4 rfl (by decide) trivial,
    decode_eq_ok_iff_match 0x5#4 rfl (by decide) trivial,
    decode_eq_ok_iff_match 0x6#4 rfl (by decide) trivial,
    decode_eq_ok_iff_match 0x7#4 rfl (by decide) trivial,
    decode_eq_ok_iff_match 0x8#4 rfl (by decide) hb,
    decode_eq_ok_iff_match 0x9#4 rfl (by decide) trivial,
    decode_eq_ok_iff_match 0xA#4 rfl (by decide) trivial,
    decode_eq_ok_iff_match 0xB#4 rfl (by decide) trivial,
    decode_eq_ok_iff_match 0xC#4 rfl (by decide) trivial⟩

/-- Settles O6: the decoder evaluated on each word. -/
theorem sampleWordsDecode : Obligations.SampleWordsDecode :=
  ⟨rfl, rfl, rfl, rfl, rfl, rfl, rfl⟩

end Sys2Proof
end

section
/-! PROOFS. What one step does with the next input: a request, the reset signal or nothing; O3, O7, O8, O9, O11 and O12. -/

namespace Sys2Proof.Machine

variable {s : State} {rest : List Event}

/-- A step on a request is its operation, the request's ports presented. -/
theorem step_of_decoded_request {cw : ControlWord} {din : Ports} {i : Instr} (hp : s.pending = .request cw din :: rest)
    (hd : decode cw = .ok i) : step s = exec i (s.present din rest) := by
  rw [step_of_request hp, serve, hd]

/-- Settles O8. -/
theorem stepRunsDecodedRequest : Obligations.StepRunsDecodedRequest := by
  intro s cw din rest i hp hd
  exact step_of_decoded_request hp hd

/-- Settles O3: the other word decodes to the same operation because an operation is decoded from its used bits alone, and a
step does with a request what its operation does. -/
theorem ignoredFieldsChangeNothing : Obligations.IgnoredFieldsChangeNothing := by
  intro cw cw' i s din rest h hbits
  have h' : decode cw' = .ok i := by rwa [← decode_and_usedBits, hbits, decode_and_usedBits]
  refine ⟨h', ?_⟩
  rw [step_of_decoded_request rfl h', step_of_decoded_request rfl h]
  rfl

/-- Settles O7: the codes evaluated. -/
theorem registerCodesAsTabled : Obligations.RegisterCodesAsTabled :=
  ⟨rfl, rfl, rfl, rfl⟩

theorem step_of_nothing (h : s.pending = []) : step s = .next s := by simp [step, h]

/-- Settles O9. -/
theorem waitsForRequest : Obligations.WaitsForRequest :=
  ⟨fun _ => step_of_nothing, rfl⟩

/-- R37's values say nothing of the ports and of the inputs to come, so those of `resetOf` hold after the reset signal. -/
theorem State.resetRegisters_atReset (s : State) (rest : List Event) : (s.resetRegisters rest).AtReset :=
  State.resetOf_atReset s.params

/-- Settles O11. -/
theorem resetSignalResetsEveryRegister : Obligations.ResetSignalResetsEveryRegister := by
  intro s rest h
  exact ⟨_, step_of_reset h, s.resetRegisters_atReset rest, rfl, rfl, rfl⟩

/-! ### Runs -/

/-- Serving a request completes and leaves the inputs to come as they are. -/
theorem serve_completes (cw : ControlWord) (s : State) : ∃ t, serve cw s = .next t ∧ t.pending = s.pending := by
  cases hd : decode cw with
  | error e => exact ⟨_, serve_of_error hd s, rfl⟩
  | ok i =>
    obtain ⟨st, s', hexec, -, -, hpending⟩ := exec_ends i s
    exact ⟨s'.setStatus st, by rw [serve, hd]; exact hexec, hpending⟩

/-- No step stops, and each takes the input presented. -/
theorem step_completes (s : State) : ∃ t, step s = .next t ∧ t.pending = s.pending.tail := by
  cases h : s.pending with
  | nil => exact ⟨s, step_of_nothing h, h⟩
  | cons e rest =>
    cases e with
    | reset => exact ⟨_, step_of_reset h, rfl⟩
    | request cw din => simpa [step_of_request h] using serve_completes cw (s.present din rest)

theorem core_run_succ_of_step {t : State} (k : Nat) (h : step s = .next t) :
    Sys2Proof.core.run (k + 1) s = Sys2Proof.core.run k t := by
  simp only [Host.Core.run, Sys2Proof.core, h]

/-- A run of one step for each input to come serves them all. -/
theorem core_run_serves_all (events : List Event) :
    ∀ s : State, s.pending = events → ∃ t, Sys2Proof.core.run events.length s = .next t ∧ t.pending = [] := by
  induction events with
  | nil => exact fun s h => ⟨s, rfl, h⟩
  | cons e events ih =>
    intro s h
    obtain ⟨t, hstep, ht⟩ := step_completes s
    rw [List.length_cons, core_run_succ_of_step _ hstep]
    exact ih t (by rw [ht, h, List.tail_cons])

/-- Settles O12: every step completes, and by induction on the inputs to come a run of them all ends with none. -/
theorem everyRunCompletes : Obligations.EveryRunCompletes :=
  fun s => ⟨step_completes s, core_run_serves_all s.pending s rfl⟩

end Sys2Proof.Machine
end

section
/-! PROOFS. The answers of HEXDEC, HEXDECA, PREND and PARSE in each of their cases (spec/40_hex_codec.md R75, R76;
spec/42_frame_codec.md R95, R96), O36, O37 and O45. -/

namespace Sys2Proof.Machine

variable {s : State}

/-! ### HEXDEC -/

theorem exec_hexdec_of_illegal_length (src : Source) (h : ¬(1 ≤ sourceLen src s ∧ sourceLen src s ≤ 8)) :
    exec (.hexdec src) s = .next (s.setStatus .badOperand) := by
  simp [exec, execHexdec, mt (widthLegal_iff _).mp h]

theorem exec_hexdec_of_legal (src : Source) (h1 : 1 ≤ sourceLen src s) (h8 : sourceLen src s ≤ 8) :
    exec (.hexdec src) s =
      .next ((s.latchField (sourceString src s)).setStatus (hexdecStatus (sourceString src s))) := by
  simp [exec, execHexdec, (widthLegal_iff _).mpr ⟨h1, h8⟩]

/-! ### HEXDECA -/

theorem sourceTooLong_iff (src : Source) (s : State) :
    sourceTooLong src s = true ↔ src = .ports ∧ s.params.maxBuf < sourceLen src s := by
  cases src <;> simp [sourceTooLong, sourceLen]

theorem exec_hexdeca_of_refused {src : Source} {n w : Nat}
    (h : w < 1 ∨ 8 < w ∨ n < 1 ∨ 16 < n ∨ (src = .ports ∧ s.params.maxBuf < sourceLen src s)) :
    exec (.hexdeca src n w) s = .next (s.setStatus .badOperand) := by
  by_cases hlegal : (1 ≤ w ∧ w ≤ 8) ∧ (1 ≤ n ∧ n ≤ 16)
  · have hlong : sourceTooLong src s = true := by
      by_contra hshort
      rw [sourceTooLong_iff] at hshort
      simp only [hshort, or_false] at h
      omega
    simp [exec, execHexdeca, hlong]
  · rw [← widthLegal_iff, ← countLegal_iff, ← Bool.and_eq_true] at hlegal
    simp [exec, execHexdeca, hlegal]

theorem exec_hexdeca_of_legal {src : Source} {n w : Nat} (hw1 : 1 ≤ w) (hw8 : w ≤ 8) (hn1 : 1 ≤ n) (hn16 : n ≤ 16)
    (hlen : src = .ports → sourceLen src s ≤ s.params.maxBuf) :
    exec (.hexdeca src n w) s =
      .next ((s.latchFields n w (sourceString src s)).setStatus (hexdecaStatus n w (sourceString src s))) := by
  have hlong : ¬sourceTooLong src s = true := mt (sourceTooLong_iff src s).mp fun ⟨hsrc, h⟩ =>
    absurd (hlen hsrc) (Nat.not_le.mpr h)
  simp [exec, execHexdeca, (widthLegal_iff w).mpr ⟨hw1, hw8⟩, (countLegal_iff n).mpr ⟨hn1, hn16⟩, hlong]

/-! ### PREND -/

theorem exec_prend (s : State) : exec .prend s = .next ((s.setParser (pend s.parser)).setStatus .ok) := rfl

/-- `PEND` in a state whose class it gives (R91). -/
theorem pend_of_pst {p : Parser} {st : ParserState} {c : ParserClass} (hc : pendClass st = some c) (h : p.pst = st) :
    pend p = { p with pclass := c, pst := .done } := by
  rw [pend, h, hc, Option.getD_some]

/-- `PEND` in NAKT keeps the class (R91). -/
theorem pend_of_nakt {p : Parser} (h : p.pst = .nakt) : pend p = { p with pst := .done } := by
  rw [pend, h, pendClass, Option.getD_none]

/-- Settles O36: PREND writes what `pend` makes of the parser, state by state. -/
theorem prendResult : Obligations.PrendResult := by
  intro s
  exact ⟨_, exec_prend s, pend_of_pst rfl, pend_of_pst rfl, pend_of_pst rfl, pend_of_pst rfl, pend_of_nakt, pend_of_done⟩

/-- Settles O45: in DONE neither `pstep` nor `pend` changes the parser. -/
theorem doneIgnoresFurtherInput : Obligations.DoneIgnoresFurtherInput := by
  intro s hdone
  constructor
  · intro hval
    have hbyte : s.din.val.toNat = (BitVec.ofNat 8 s.din.val.toNat).toNat := (Nat.mod_eq_of_lt hval).symm
    rw [exec_prbyte_of_byte hbyte, pstep_of_done hdone]
    rfl
  · rw [exec_prend, pend_of_done hdone]
    rfl

/-! ### PARSE -/

theorem exec_parse_of_too_long (h : s.params.maxBuf < s.din.len) : exec .parse s = .next (s.setStatus .badOperand) := by
  simp [exec, execParse, h]

theorem exec_parse_of_fits (h : s.din.len ≤ s.params.maxBuf) :
    exec .parse s =
      .next ((s.setParser (parseBytes s.params.maxPayload s.din.string s.parser)).setStatus .ok) := by
  simp [exec, execParse, Nat.not_lt.mpr h]

/-- Settles O37: PARSE ends with `pend`, which leaves the parser in DONE. -/
theorem parseCompletesInDone : Obligations.ParseCompletesInDone := by
  intro s
  exact ⟨exec_parse_of_too_long, fun h => ⟨_, exec_parse_of_fits h, rfl, rfl⟩⟩

end Sys2Proof.Machine
end

section
/-! PROOFS. What an operation can do, said once: the status it ends with and the registers it writes before that; O15, O16 and
O17 (spec/10_state.md R21 to R25, R33; spec/60_exceptions.md R101). -/

namespace Sys2Proof.Machine

/-- `Effect s i st s'`: from `s` the operation `i` may write the registers as `s'` has them and end with status `st`. -/
inductive Effect (s : State) : Instr → Status → State → Prop
  | badOperand (i : Instr) (h : Status.badOperand ∈ statusesOf i) : Effect s i .badOperand s
  | layoutUnsupported : Effect s .cfgenc .layoutUnsupported s
  | hexOverflow (w : Nat) : Effect s (.hexenc w) .hexOverflow (s.setDoutLen 0)
  | hexenc {w : Nat} (hw : w ≤ 8) : Effect s (.hexenc w) .ok (s.latchBytes (hexField w s.din.val))
  | hexdec (src : Source) :
    Effect s (.hexdec src) (hexdecStatus (sourceString src s)) (s.latchField (sourceString src s))
  | hexdeca (src : Source) {n w : Nat} (hn : n ≤ 16) :
    Effect s (.hexdeca src n w) (hexdecaStatus n w (sourceString src s)) (s.latchFields n w (sourceString src s))
  | cfgdec (c : ChannelConfig) : Effect s .cfgdec .ok (s.latchConfig c)
  | cfgenc (v : Value) : Effect s .cfgenc .ok (s.latchValue v)
  | settgt (a : BitVec 7) : Effect s .settgt .ok (s.setTarget a)
  | addrdec (a : BitVec 7) (hi : Bool) : Effect s .addrdec .ok (s.latchAddress a hi)
  | bufOverflow (sel : AddressSelect) : Effect s (.frmbld sel) .bufOverflow (s.setDoutLen 0)
  | frmbld (sel : AddressSelect) (h : s.din.len ≤ s.params.maxArgs) :
    Effect s (.frmbld sel) .ok (s.latchBytes (commandFrame (selectedAddress sel s) s.din.mnem s.din.string))
  | prstart : Effect s .prstart .ok (s.setParser (pinit s.parser))
  | prbyte (b : Byte) : Effect s .prbyte .ok (s.setParser (pstep s.params.maxPayload s.parser b))
  | prend : Effect s .prend .ok (s.setParser (pend s.parser))
  | parse (bytes : List Byte) : Effect s .parse .ok (s.setParser (parseBytes s.params.maxPayload bytes s.parser))

/-- Every operation completes with one of its effects. -/
theorem exec_effect (i : Instr) (s : State) : ∃ st s', exec i s = .next (s'.setStatus st) ∧ Effect s i st s' := by
  have refused (hmem : .badOperand ∈ statusesOf i) (h : exec i s = .next (s.setStatus .badOperand)) :
      ∃ st s', exec i s = .next (s'.setStatus st) ∧ Effect s i st s' := ⟨_, _, h, .badOperand i hmem⟩
  cases i with
  | hexenc w =>
    by_cases hw : 1 ≤ w ∧ w ≤ 8
    · rcases Nat.lt_or_ge s.din.val.toNat (16 ^ w) with hv | hv
      · exact ⟨_, _, exec_hexenc_of_fits hw.1 hw.2 hv, .hexenc hw.2⟩
      · exact ⟨_, _, exec_hexenc_of_too_large hw.1 hw.2 hv, .hexOverflow w⟩
    · exact refused (by simp [statusesOf]) (exec_hexenc_of_illegal_width hw)
  | hexdec src =>
    by_cases hn : 1 ≤ sourceLen src s ∧ sourceLen src s ≤ 8
    · exact ⟨_, _, exec_hexdec_of_legal src hn.1 hn.2, .hexdec src⟩
    · exact refused (by simp [statusesOf]) (exec_hexdec_of_illegal_length src hn)
  | hexdeca src n w =>
    by_cases h : w < 1 ∨ 8 < w ∨ n < 1 ∨ 16 < n ∨ (src = .ports ∧ s.params.maxBuf < sourceLen src s)
    · exact refused (by simp [statusesOf]) (exec_hexdeca_of_refused h)
    · exact ⟨_, _, exec_hexdeca_of_legal (by omega) (by omega) (by omega) (by omega) fun hsrc =>
        not_lt.mp fun hlt => h (.inr (.inr (.inr (.inr ⟨hsrc, hlt⟩)))), .hexdeca src (by omega)⟩
  | cfgdec =>
    rcases Nat.lt_or_ge s.din.val.toNat (2 ^ 16) with hv | hv
    · exact ⟨_, _, exec_cfgdec_of_fits hv, .cfgdec _⟩
    · exact refused (by simp [statusesOf]) (exec_cfgdec_of_too_large hv)
  | cfgenc =>
    cases h : s.params.layout with
    | icd => exact ⟨_, _, exec_cfgenc_of_icd h, .cfgenc _⟩
    | impl => exact ⟨_, _, exec_cfgenc_of_impl h, .layoutUnsupported⟩
  | settgt =>
    rcases Nat.lt_or_ge s.din.val.toNat 128 with hv | hv
    · exact ⟨_, _, exec_settgt_of_fits hv, .settgt _⟩
    · exact refused (by simp [statusesOf]) (exec_settgt_of_too_large hv)
  | addrdec =>
    rcases Nat.lt_or_ge s.din.val.toNat 256 with hv | hv
    · exact ⟨_, _, exec_addrdec_of_fits hv, .addrdec _ _⟩
    · exact refused (by simp [statusesOf]) (exec_addrdec_of_too_large hv)
  | frmbld sel =>
    rcases Nat.lt_or_ge s.params.maxBuf s.din.len with hbuf | hbuf
    · exact refused (by simp [statusesOf]) (exec_frmbld_of_too_long sel hbuf)
    rcases Nat.lt_or_ge s.params.maxArgs s.din.len with hargs | hargs
    · exact ⟨_, _, exec_frmbld_of_args_too_long sel hbuf hargs, .bufOverflow sel⟩
    · exact ⟨_, _, exec_frmbld_of_fits sel hbuf hargs, .frmbld sel hargs⟩
  | prstart => exact ⟨_, _, exec_prstart s, .prstart⟩
  | prbyte =>
    rcases Nat.lt_or_ge s.din.val.toNat 256 with hv | hv
    · exact ⟨_, _, exec_prbyte_of_byte (b := .ofNat 8 s.din.val.toNat) (Nat.mod_eq_of_lt hv).symm, .prbyte _⟩
    · exact refused (by simp [statusesOf]) (exec_prbyte_of_too_large hv)
  | prend => exact ⟨_, _, exec_prend s, .prend⟩
  | parse =>
    rcases Nat.lt_or_ge s.params.maxBuf s.din.len with hbuf | hbuf
    · exact refused (by simp [statusesOf]) (exec_parse_of_too_long hbuf)
    · exact ⟨_, _, exec_parse_of_fits hbuf, .parse _⟩

/-- The next state of an operation is one of its effects with the status written over it. -/
theorem effect_of_exec {i : Instr} {s t : State} (h : exec i s = .next t) :
    ∃ st s', t = s'.setStatus st ∧ Effect s i st s' := by
  obtain ⟨st, s', hexec, heffect⟩ := exec_effect i s
  exact ⟨st, s', by simpa [hexec] using h.symm, heffect⟩

variable {i : Instr} {s s' : State} {st : Status}

/-! ### Statuses -/

theorem hexdecStatus_eq (f : List Byte) : hexdecStatus f = .ok ∨ hexdecStatus f = .invalidHex := by
  unfold hexdecStatus; split_ifs <;> simp

theorem hexdecaStatus_eq (n w : Nat) (p : List Byte) :
    hexdecaStatus n w p = .ok ∨ hexdecaStatus n w p = .truncated ∨ hexdecaStatus n w p = .invalidHex := by
  unfold hexdecaStatus; split_ifs <;> simp

/-- An effect's status is one the table names the operation for (R101). -/
theorem Effect.status_mem (h : Effect s i st s') : st ∈ statusesOf i := by
  cases h with
  | badOperand i hmem => exact hmem
  | hexdec src => rcases hexdecStatus_eq (sourceString src s) with h | h <;> simp [h, statusesOf]
  | @hexdeca src n w => rcases hexdecaStatus_eq n w (sourceString src s) with h | h | h <;> simp [h, statusesOf]
  | _ => simp [statusesOf]

/-- An effect that ends with a refusal writes nothing (R101). -/
theorem Effect.eq_of_refusal (h : Effect s i st s') (hst : st = .badOperand ∨ st = .illegalOp ∨ st = .layoutUnsupported) :
    s' = s := by
  cases h with
  | badOperand | layoutUnsupported => rfl
  | hexdec src => rcases hexdecStatus_eq (sourceString src s) with h | h <;> simp [h] at hst
  | @hexdeca src n w => rcases hexdecaStatus_eq n w (sourceString src s) with h | h | h <;> simp [h] at hst
  | _ => simp at hst

/-- Settles O15: an effect with a refusal's status has written nothing before it. -/
theorem refusalChangesOnlyStatus : Obligations.RefusalChangesOnlyStatus := by
  intro i s t hexec hstatus
  obtain ⟨st, s', rfl, heffect⟩ := effect_of_exec hexec
  rw [heffect.eq_of_refusal hstatus]
  rfl

/-- Settles O16. -/
theorem statusesOfEachOperation : Obligations.StatusesOfEachOperation := by
  intro i s t hexec
  obtain ⟨st, s', rfl, heffect⟩ := effect_of_exec hexec
  exact heffect.status_mem

/-! ### Registers written -/

/-- Settles O17: each effect is one named register write, so each register is as it was or the operation is one of those
that write it. -/
theorem registersWrittenOnlyByTheirOperations : Obligations.RegistersWrittenOnlyByTheirOperations := by
  intro i s t hexec
  obtain ⟨st, s', rfl, heffect⟩ := effect_of_exec hexec
  cases heffect <;> simp

end Sys2Proof.Machine
end

section
/-! PROOFS. The parser's part of the invariant: PINIT, PSTEP, PEND and so PARSE keep the parser's registers consistent
(spec/42_frame_codec.md R89 to R91, R96; spec/60_exceptions.md R103), and O44. -/

namespace Sys2Proof.Machine

variable {m : Nat} {p : Parser} {b : Byte}

/-! ### Consistency, state by state -/

theorem Parser.consistent_of_scan (h : p.pst = .scan) :
    p.Consistent m ↔ p.pbuf.length = m ∧ p.plen ≤ m ∧ p.pclass = .pending ∧ p.NothingRecorded ∧ p.plen = 0 := by
  simp [Consistent, h]

theorem Parser.consistent_of_ackp (h : p.pst = .ackp) :
    p.Consistent m ↔ p.pbuf.length = m ∧ p.plen ≤ m ∧ p.pclass = .pending ∧ p.NothingRecorded := by
  simp [Consistent, h]

theorem Parser.consistent_of_nak1 (h : p.pst = .nak1) :
    p.Consistent m ↔ p.pbuf.length = m ∧ p.plen ≤ m ∧ p.pclass = .pending ∧ p.NothingRecorded ∧ p.plen = 0 := by
  simp [Consistent, h]

theorem Parser.consistent_of_nak2 (h : p.pst = .nak2) :
    p.Consistent m ↔ p.pbuf.length = m ∧ p.plen ≤ m ∧ p.pclass = .pending ∧ p.preason = .none ∧ p.pcode = 0x33#8
      ∧ p.prsn = 0x00#8 ∧ p.pterm = false ∧ p.plen = 0 := by
  simp [Consistent, h]

theorem Parser.consistent_of_nakt (h : p.pst = .nakt) :
    p.Consistent m ↔ p.pbuf.length = m ∧ p.plen ≤ m ∧ p.NakVerdict ∧ p.pterm = false ∧ p.plen = 0 := by
  simp [Consistent, h]

theorem Parser.consistent_of_done (h : p.pst = .done) :
    p.Consistent m ↔ p.pbuf.length = m ∧ p.plen ≤ m ∧ p.FinalVerdict m := by
  simp [Consistent, h]

/-- A NAK verdict with no payload is a final one. -/
theorem Parser.NakVerdict.finalVerdict (h : p.NakVerdict) (hlen : p.plen = 0) : p.FinalVerdict m := by
  cases hc : p.pclass <;> simp_all [FinalVerdict, NakVerdict]

/-- A parser that enters DONE with a NAK verdict and no payload is consistent. -/
theorem Parser.NakVerdict.consistent_of_done (h : p.NakVerdict) (hdone : p.pst = .done) (hbuf : p.pbuf.length = m)
    (hlen : p.plen = 0) : p.Consistent m :=
  (Parser.consistent_of_done hdone).mpr ⟨hbuf, by omega, h.finalVerdict hlen⟩

/-! ### PINIT -/

theorem pinit_consistent (h : p.pbuf.length = m) : (pinit p).Consistent m :=
  (Parser.consistent_of_scan rfl).mpr ⟨h, Nat.zero_le m, rfl, ⟨rfl, rfl, rfl, rfl⟩, rfl⟩

/-! ### PSTEP -/

theorem pstepScan_consistent (hst : p.pst = .scan) (h : p.Consistent m) : (pstepScan b p).Consistent m := by
  obtain ⟨hbuf, hlen, hclass, hnothing, hzero⟩ := (Parser.consistent_of_scan hst).mp h
  unfold pstepScan
  split_ifs
  · exact (Parser.consistent_of_ackp rfl).mpr ⟨hbuf, hlen, hclass, hnothing⟩
  · exact (Parser.consistent_of_nak1 rfl).mpr ⟨hbuf, hlen, hclass, hnothing, hzero⟩
  · exact h

theorem pstepAckp_consistent (hst : p.pst = .ackp) (h : p.Consistent m) : (pstepAckp m b p).Consistent m := by
  obtain ⟨hbuf, hlen, hclass, hnothing⟩ := (Parser.consistent_of_ackp hst).mp h
  obtain ⟨hreason, hcode, hrsn, hterm⟩ := hnothing
  unfold pstepAckp
  split_ifs with hb hfull
  · exact (Parser.consistent_of_done rfl).mpr ⟨hbuf, hlen, hreason, hcode, hrsn⟩
  · exact (Parser.consistent_of_done rfl).mpr ⟨hbuf, hlen, ⟨hreason, hcode, hrsn, hterm⟩, hfull⟩
  · have hroom : p.plen + 1 ≤ m := by omega
    exact (Parser.consistent_of_ackp (by exact hst)).mpr
      ⟨by simpa using hbuf, hroom, hclass, hreason, hcode, hrsn, hterm⟩

theorem pstepNak1_consistent (hst : p.pst = .nak1) (h : p.Consistent m) : (pstepNak1 b p).Consistent m := by
  obtain ⟨hbuf, hlen, hclass, ⟨hreason, hcode, hrsn, hterm⟩, hzero⟩ := (Parser.consistent_of_nak1 hst).mp h
  unfold pstepNak1
  split_ifs with h1 h2 h3 hb
  · exact (Parser.consistent_of_nakt rfl).mpr ⟨hbuf, hlen, ⟨hreason, h1, hrsn⟩, hterm, hzero⟩
  · exact (Parser.consistent_of_nakt rfl).mpr ⟨hbuf, hlen, ⟨hreason, h2, hrsn⟩, hterm, hzero⟩
  · exact (Parser.consistent_of_nak2 rfl).mpr ⟨hbuf, hlen, hclass, hreason, h3, hrsn, hterm, hzero⟩
  · exact (Parser.consistent_of_done rfl).mpr ⟨hbuf, hlen, ⟨hreason, h1, h2, .inl hrsn⟩, hzero⟩
  · exact (Parser.consistent_of_nakt rfl).mpr ⟨hbuf, hlen, ⟨hreason, h1, h2, .inl hrsn⟩, hterm, hzero⟩

/-- The verdict of a reason byte fits that byte (R69). -/
theorem reasonOf_fits (h : isReasonByte b = true) :
    1 ≤ (reasonOf b).code.toNat ∧ (reasonOf b).code.toNat ≤ 4 ∧ b.toNat = 0x30 + (reasonOf b).code.toNat := by
  obtain ⟨h1, h4⟩ := (isReasonByte_iff b).mp h
  have hcode := toNat_code_reasonOf h1 h4
  omega

theorem pstepNak2_consistent (hst : p.pst = .nak2) (h : p.Consistent m) : (pstepNak2 b p).Consistent m := by
  obtain ⟨hbuf, hlen, -, hreason, hcode, -, hterm, hzero⟩ := (Parser.consistent_of_nak2 hst).mp h
  have hnot1 : p.pcode ≠ 0x31#8 := by rw [hcode]; decide
  have hnot2 : p.pcode ≠ 0x32#8 := by rw [hcode]; decide
  unfold pstepNak2
  split_ifs with hb hr
  · have hcrlf : b = crByte ∨ b = lfByte := (isTerm_iff b).mp hb
    exact (Parser.consistent_of_done rfl).mpr ⟨hbuf, hlen, ⟨hreason, hnot1, hnot2, .inr ⟨hcode, hcrlf⟩⟩, hzero⟩
  · exact (Parser.consistent_of_nakt rfl).mpr ⟨hbuf, hlen, ⟨hcode, reasonOf_fits hr⟩, hterm, hzero⟩
  · obtain ⟨hcr, hlf⟩ := not_or.mp (mt (isTerm_iff b).mpr hb)
    have hrange : b.toNat < 0x31 ∨ 0x34 < b.toNat := by
      rw [isReasonByte_iff] at hr
      omega
    exact (Parser.consistent_of_nakt rfl).mpr ⟨hbuf, hlen, ⟨hreason, hcode, hcr, hlf, hrange⟩, hterm, hzero⟩

theorem pstepNakt_consistent (hst : p.pst = .nakt) (h : p.Consistent m) : (pstepNakt b p).Consistent m := by
  obtain ⟨hbuf, hlen, hverdict, -, hzero⟩ := (Parser.consistent_of_nakt hst).mp h
  exact Parser.NakVerdict.consistent_of_done (p := pstepNakt b p) hverdict rfl hbuf hzero

theorem pstep_consistent (b : Byte) (h : p.Consistent m) : (pstep m p b).Consistent m := by
  cases hst : p.pst with
  | scan => rw [pstep_of_scan hst]; exact pstepScan_consistent hst h
  | ackp => rw [pstep_of_ackp hst]; exact pstepAckp_consistent hst h
  | nak1 => rw [pstep_of_nak1 hst]; exact pstepNak1_consistent hst h
  | nak2 => rw [pstep_of_nak2 hst]; exact pstepNak2_consistent hst h
  | nakt => rw [pstep_of_nakt hst]; exact pstepNakt_consistent hst h
  | done => rw [pstep_of_done hst]; exact h

/-! ### PEND and PARSE -/

theorem pend_consistent (h : p.Consistent m) : (pend p).Consistent m := by
  cases hst : p.pst with
  | scan =>
    obtain ⟨hbuf, hlen, -, hnothing, hzero⟩ := (Parser.consistent_of_scan hst).mp h
    rw [pend_of_pst rfl hst]
    exact (Parser.consistent_of_done rfl).mpr ⟨hbuf, hlen, hnothing, hzero⟩
  | ackp =>
    obtain ⟨hbuf, hlen, -, hreason, hcode, hrsn, -⟩ := (Parser.consistent_of_ackp hst).mp h
    rw [pend_of_pst rfl hst]
    exact (Parser.consistent_of_done rfl).mpr ⟨hbuf, hlen, hreason, hcode, hrsn⟩
  | nak1 =>
    obtain ⟨hbuf, hlen, -, ⟨hreason, hcode, hrsn, -⟩, hzero⟩ := (Parser.consistent_of_nak1 hst).mp h
    rw [pend_of_pst rfl hst]
    exact (Parser.consistent_of_done rfl).mpr
      ⟨hbuf, hlen, ⟨hreason, by rw [hcode]; decide, by rw [hcode]; decide, .inl hrsn⟩, hzero⟩
  | nak2 =>
    obtain ⟨hbuf, hlen, -, hreason, hcode, hrsn, -, hzero⟩ := (Parser.consistent_of_nak2 hst).mp h
    rw [pend_of_pst rfl hst]
    exact (Parser.consistent_of_done rfl).mpr
      ⟨hbuf, hlen, ⟨hreason, by rw [hcode]; decide, by rw [hcode]; decide, .inl hrsn⟩, hzero⟩
  | nakt =>
    obtain ⟨hbuf, hlen, hverdict, -, hzero⟩ := (Parser.consistent_of_nakt hst).mp h
    rw [pend_of_nakt hst]
    exact Parser.NakVerdict.consistent_of_done (p := { p with pst := .done }) hverdict rfl hbuf hzero
  | done => rwa [pend_of_done hst]

theorem foldl_pstep_consistent (bytes : List Byte) (h : p.Consistent m) : (bytes.foldl (pstep m) p).Consistent m := by
  induction bytes generalizing p with
  | nil => exact h
  | cons b bytes ih => exact ih (pstep_consistent b h)

theorem parseBytes_consistent (bytes : List Byte) (h : p.pbuf.length = m) : (parseBytes m bytes p).Consistent m :=
  pend_consistent (foldl_pstep_consistent bytes (pinit_consistent h))

/-! ### The verdict is final -/

/-- A class is given in NAKT and DONE only (R28, R103). -/
theorem Parser.Consistent.pst_of_classified (h : p.Consistent m) (hclass : p.pclass ≠ .pending) :
    p.pst = .nakt ∨ p.pst = .done := by
  cases hst : p.pst <;> simp_all [Consistent]

/-- A byte taken after the class is given changes `PST` and `PTERM` at most (R105). -/
theorem pstep_of_classified (b : Byte) (h : p.Consistent m) (hclass : p.pclass ≠ .pending) :
    pstep m p b = { p with pst := (pstep m p b).pst, pterm := (pstep m p b).pterm } := by
  obtain hst | hst := h.pst_of_classified hclass
  · rw [pstep_of_nakt hst]; rfl
  · rw [pstep_of_done hst]

/-- The end of the input after the class is given changes `PST` at most (R105). -/
theorem pend_of_classified (h : p.Consistent m) (hclass : p.pclass ≠ .pending) : pend p = { p with pst := .done } := by
  obtain hst | hst := h.pst_of_classified hclass
  · exact pend_of_nakt hst
  · rw [pend_of_done hst, ← hst]

/-- Settles O44: PRBYTE is refused or feeds its byte to `pstep`, PREND is `pend`, and on a classified parser these change no
more than `PST` and `PTERM`. -/
theorem verdictIsFinal : Obligations.VerdictIsFinal := by
  rintro i s t ⟨-, -, -, -, -, hparser⟩ hclass hi hexec
  obtain ⟨st, s', rfl, heffect⟩ := effect_of_exec hexec
  cases heffect with
  | badOperand => rfl
  | prbyte b => exact pstep_of_classified b hparser hclass
  | prend =>
    rw [State.setStatus_parser, State.setParser_parser, pend_of_classified hparser hclass]
  | _ => simp at hi

end Sys2Proof.Machine
end

section
/-! PROOFS. The invariant of Safety.lean (spec/10_state.md R22, R23, R27 to R32; spec/60_exceptions.md R103): it holds after
reset, every register write an operation makes keeps it, and so does every step; O13 and O14. -/

namespace Sys2Proof.Machine

variable {s s' : State} {i : Instr} {st : Status}

/-- The invariant holds after reset of every instance of the sizes R8 asks for. -/
theorem State.resetOf_inv {p : BuildParams} (h : p.Sizes) : (State.resetOf p).Inv :=
  ⟨h, List.length_replicate, Nat.zero_le _, Nat.zero_le _, fun k _ =>
    ⟨resetOf_getElem_doutVals p k k.isLt, resetOf_getElem_doutMasks p k k.isLt⟩,
    (Parser.consistent_of_scan rfl).mpr ⟨List.length_replicate, Nat.zero_le _, rfl, ⟨rfl, rfl, rfl, rfl⟩, rfl⟩⟩

/-- Settles O13: this hardware has the sizes R8 asks for. -/
theorem invariantAtReset : Obligations.InvariantAtReset :=
  State.resetOf_inv (by decide)

/-! ### Register writes -/

theorem State.Inv.setStatus (h : s.Inv) (st : Status) : (s.setStatus st).Inv := h

theorem State.Inv.present (h : s.Inv) (din : Ports) (rest : List Event) : (s.present din rest).Inv := h

theorem State.Inv.resetRegisters (h : s.Inv) (rest : List Event) : (s.resetRegisters rest).Inv := by
  obtain ⟨hsizes, -⟩ := h
  exact State.resetOf_inv hsizes

theorem State.Inv.setDoutLen_zero (h : s.Inv) : (s.setDoutLen 0).Inv := by
  obtain ⟨hsizes, hbytes, -, harrays⟩ := h
  exact ⟨hsizes, hbytes, Nat.zero_le _, harrays⟩

/-- A string that fits `DOUT_BYTES` leaves it its size (R22). -/
theorem State.Inv.latchBytes (h : s.Inv) {f : List Byte} (hf : f.length ≤ s.params.maxBuf) : (s.latchBytes f).Inv := by
  obtain ⟨hsizes, hbytes, -, harrays⟩ := h
  exact ⟨hsizes, (length_overlay f s.doutBytes (hbytes ▸ hf)).trans hbytes, hf, harrays⟩

/-- HEXDECA's arrays are 0 from `DOUT_NVALID` on (R23, R76). -/
theorem State.Inv.latchFields (h : s.Inv) {n : Nat} (hn : n ≤ maxN) (w : Nat) (p : List Byte) :
    (s.latchFields n w p).Inv := by
  obtain ⟨hsizes, hbytes, hlen, -, -, hparser⟩ := h
  refine ⟨hsizes, hbytes, hlen, (Nat.min_le_left n (p.length / w)).trans hn, fun k hk => ?_, hparser⟩
  have hlt : ¬k.val < completeFields n w p.length := Nat.not_lt.mpr hk
  simp [hlt]

theorem State.Inv.setParser (h : s.Inv) {p : Parser} (hp : p.Consistent s.params.maxPayload) : (s.setParser p).Inv := by
  obtain ⟨hsizes, hbytes, hlen, hnvalid, harrays, -⟩ := h
  exact ⟨hsizes, hbytes, hlen, hnvalid, harrays, hp⟩

/-! ### Operations and steps -/

/-- What an operation writes keeps the invariant. -/
theorem Effect.inv (heffect : Effect s i st s') (h : s.Inv) : s'.Inv := by
  obtain ⟨⟨-, -, hbuf, hframe⟩, -, -, -, -, hparser⟩ := id h
  cases heffect with
  | badOperand => exact h
  | layoutUnsupported => exact h
  | hexOverflow => exact h.setDoutLen_zero
  | bufOverflow => exact h.setDoutLen_zero
  | hexenc hw => exact h.latchBytes (by rw [length_hexField]; omega)
  | frmbld sel hargs => exact h.latchBytes (by rw [length_commandFrame, Ports.length_string]; omega)
  | hexdec => exact h
  | hexdeca src hn => exact h.latchFields hn _ _
  | cfgdec => exact h
  | cfgenc => exact h
  | settgt => exact h
  | addrdec => exact h
  | prstart => exact h.setParser (pinit_consistent hparser.1)
  | prbyte b => exact h.setParser (pstep_consistent b hparser)
  | prend => exact h.setParser (pend_consistent hparser)
  | parse bytes => exact h.setParser (parseBytes_consistent bytes hparser.1)

theorem State.Inv.exec {t : State} (h : s.Inv) (hexec : Machine.exec i s = .next t) : t.Inv := by
  obtain ⟨st, s', rfl, heffect⟩ := effect_of_exec hexec
  exact (heffect.inv h).setStatus st

theorem State.Inv.serve {t : State} (h : s.Inv) {cw : ControlWord} (hserve : Machine.serve cw s = .next t) : t.Inv := by
  cases hd : decode cw with
  | error e =>
    rw [serve_of_error hd] at hserve
    obtain rfl := Host.Outcome.next.inj hserve
    exact h.setStatus _
  | ok i =>
    rw [Machine.serve, hd] at hserve
    exact h.exec hserve

/-- Settles O14: a step waits, resets or serves a request, and each keeps the invariant. -/
theorem stepKeepsInvariant : Obligations.StepKeepsInvariant := by
  intro s t h hstep
  cases hp : s.pending with
  | nil =>
    rw [step_of_nothing hp] at hstep
    exact Host.Outcome.next.inj hstep ▸ h
  | cons e rest =>
    cases e with
    | reset =>
      rw [step_of_reset hp] at hstep
      exact Host.Outcome.next.inj hstep ▸ h.resetRegisters rest
    | request cw din =>
      rw [step_of_request hp] at hstep
      exact (h.present din rest).serve hstep

end Sys2Proof.Machine
end

section
/-! PROOFS. What HEXDEC and HEXDECA find in the characters of their source (spec/40_hex_codec.md R72, R75, R76): value and mask
of a spelled field as R72's sum and set, the complete fields of a payload, O20 and O21. -/

namespace Sys2Proof.Machine

/-! ### A spelled field -/

/-- The characters of the string `f` are `c 0`, `c 1` and so on. -/
def Spells (f : List Byte) (c : Nat → Byte) : Prop := ∀ i, i < f.length → f[i]? = some (c i)

section Spelled

variable {f : List Byte} {c : Nat → Byte} (hf : Spells f c)
include hf

/-- `v` of R72 as the sum of the digits' weights. -/
theorem Spells.fieldValue_eq : fieldValue f = ∑ i ∈ Finset.range f.length, charDigit (c i) * 16 ^ (f.length - 1 - i) := by
  induction f generalizing c with
  | nil => simp
  | cons b f ih =>
    have hb : b = c 0 := by simpa using hf 0 (by simp)
    have htail : Spells f fun i => c (i + 1) := fun i hi => by simpa using hf (i + 1) (by simpa using hi)
    rw [fieldValue_cons, List.length_cons, Finset.sum_range_succ', ih htail, charDigit_eq_digitOf, ← hb, add_comm]
    simp [Nat.sub_sub, add_comm]

/-- `m` of R72 as the set of the characters outside the alphabet. -/
theorem Spells.testBit_fieldMask_iff (i : Nat) :
    (fieldMask f).testBit i = true ↔ i < f.length ∧ c i ∉ hexAlphabet := by
  rw [testBit_fieldMask, mem_hexAlphabet_iff]
  by_cases hi : i < f.length
  · rw [hf i hi]
    simp [hi]
  · simp [hi]

theorem Spells.fieldMask_ne_zero_iff : fieldMask f ≠ 0 ↔ ∃ i, i < f.length ∧ c i ∉ hexAlphabet := by
  simp only [← hf.testBit_fieldMask_iff]
  exact ⟨Nat.exists_testBit_of_ne_zero, fun ⟨i, hi⟩ h0 => by simp [h0] at hi⟩

end Spelled

theorem spells_sourceString (src : Source) (s : State) : Spells (sourceString src s) (sourceChar src s) := fun i hi =>
  getElem?_sourceString src s i (by simpa using hi)

/-- A field of at most 8 characters fits `DOUT_VAL` (R77). -/
theorem toNat_ofNat_fieldValue {f : List Byte} (h : f.length ≤ 8) :
    (BitVec.ofNat 32 (fieldValue f)).toNat = fieldValue f := by
  have hle : 16 ^ f.length ≤ 16 ^ 8 := Nat.pow_le_pow_right (by omega) h
  exact Nat.mod_eq_of_lt ((fieldValue_lt f).trans_le hle)

/-- A field of at most 8 characters has its whole mask in `DOUT_MASK`. -/
theorem getLsbD_ofNat_fieldMask {f : List Byte} (h : f.length ≤ 8) (i : Nat) :
    (BitVec.ofNat 8 (fieldMask f)).getLsbD i = (fieldMask f).testBit i := by
  have hle : 2 ^ f.length ≤ 2 ^ 8 := Nat.pow_le_pow_right (by omega) h
  rw [BitVec.getLsbD, BitVec.toNat_ofNat, Nat.mod_eq_of_lt ((fieldMask_lt f).trans_le hle)]

@[simp] theorem getLsbD_flagsWord_inv (excess trunc inv : Bool) : (flagsWord excess trunc inv).getLsbD 0 = inv :=
  flagsWord_inv excess trunc inv

@[simp] theorem getLsbD_flagsWord_trunc (excess trunc inv : Bool) : (flagsWord excess trunc inv).getLsbD 1 = trunc :=
  flagsWord_trunc excess trunc inv

@[simp] theorem getLsbD_flagsWord_excess (excess trunc inv : Bool) : (flagsWord excess trunc inv).getLsbD 2 = excess :=
  flagsWord_excess excess trunc inv

/-! ### HEXDEC -/

theorem hexdecStatus_of_invalid {f : List Byte} (h : fieldMask f ≠ 0) : hexdecStatus f = .invalidHex := by
  simp [hexdecStatus, h]

theorem hexdecStatus_of_valid {f : List Byte} (h : fieldMask f = 0) : hexdecStatus f = .ok := by
  simp [hexdecStatus, h]

/-- Settles O20: the value is the source's string read as a sum of digits, the mask its invalid characters, and the flag INV
and the status say whether the mask is 0. -/
theorem hexdecResult : Obligations.HexdecResult := by
  intro src s
  refine ⟨fun hn => exec_hexdec_of_illegal_length src (by omega), fun h1 h8 => ⟨_, exec_hexdec_of_legal src h1 h8, rfl, ?_⟩⟩
  have hspell := spells_sourceString src s
  have hlen : (sourceString src s).length ≤ 8 := by simpa using h8
  have hinvalid := hspell.fieldMask_ne_zero_iff
  rw [length_sourceString] at hinvalid
  refine ⟨?value, fun i => ?mask, ?inv, getLsbD_flagsWord_trunc _ _ _, getLsbD_flagsWord_excess _ _ _,
    fun h => hexdecStatus_of_invalid (hinvalid.mpr h), fun h => ?ok⟩
  case value =>
    rw [State.setStatus_doutVal, State.latchField_doutVal, toNat_ofNat_fieldValue hlen, hspell.fieldValue_eq,
      length_sourceString]
  case mask =>
    rw [State.setStatus_doutMask, State.latchField_doutMask, getLsbD_ofNat_fieldMask hlen, hspell.testBit_fieldMask_iff,
      length_sourceString]
  case inv =>
    rw [State.setStatus_flags, State.latchField_flags, hexdecFlags, getLsbD_flagsWord_inv, bne_iff_ne, hinvalid]
  case ok =>
    refine hexdecStatus_of_valid (not_ne_iff.mp fun hne => ?_)
    obtain ⟨i, hi, hchar⟩ := hinvalid.mp hne
    exact hchar (h i hi)

/-! ### The complete fields of a payload -/

section Fields

variable {p : List Byte} {c : Nat → Byte} {n w k : Nat}

/-- A complete field lies in the payload (R43). -/
theorem field_end_le (hk : k < completeFields n w p.length) : k * w + w ≤ p.length := by
  have hk' : k + 1 ≤ p.length / w := hk.trans_le (Nat.min_le_right n _)
  have h := (Nat.mul_le_mul_right w hk').trans (Nat.div_mul_le_self p.length w)
  rwa [Nat.add_one_mul] at h

theorem length_fieldAt (hk : k < completeFields n w p.length) : (fieldAt w k p).length = w := by
  have h := field_end_le hk
  rw [fieldAt, List.length_take, List.length_drop]
  omega

theorem Spells.fieldAt (hp : Spells p c) (hk : k < completeFields n w p.length) :
    Spells (fieldAt w k p) fun i => c (k * w + i) := by
  intro i hi
  rw [length_fieldAt hk] at hi
  have h := field_end_le hk
  rw [Machine.fieldAt, List.getElem?_take_of_lt hi, List.getElem?_drop, hp _ (by omega)]

/-- INV of HEXDECA: the complete fields are the first `completeFields n w p.length * w` characters. -/
theorem Spells.someFieldInvalid_iff (hp : Spells p c) (hw : 1 ≤ w) :
    someFieldInvalid n w p = true ↔ ∃ i, i < completeFields n w p.length * w ∧ c i ∉ hexAlphabet := by
  have hfield : someFieldInvalid n w p = true ↔
      ∃ k, k < completeFields n w p.length ∧ fieldMask (Machine.fieldAt w k p) ≠ 0 := by
    simp [someFieldInvalid]
  rw [hfield]
  constructor
  · rintro ⟨k, hk, hmask⟩
    obtain ⟨i, hi, hchar⟩ := (hp.fieldAt hk).fieldMask_ne_zero_iff.mp hmask
    rw [length_fieldAt hk] at hi
    refine ⟨k * w + i, ?_, hchar⟩
    calc k * w + i < (k + 1) * w := by rw [Nat.add_one_mul]; omega
      _ ≤ completeFields n w p.length * w := Nat.mul_le_mul_right w hk
  · rintro ⟨i, hi, hchar⟩
    have hk : i / w < completeFields n w p.length := Nat.div_lt_of_lt_mul (by rwa [Nat.mul_comm])
    refine ⟨i / w, hk, (hp.fieldAt hk).fieldMask_ne_zero_iff.mpr ⟨i % w, ?_, ?_⟩⟩
    · rw [length_fieldAt hk]
      exact Nat.mod_lt i hw
    · rwa [Nat.div_add_mod']

/-- A payload that is long enough holds every field asked for. -/
theorem completeFields_of_long {len : Nat} (hw : 1 ≤ w) (h : n * w ≤ len) : completeFields n w len = n :=
  Nat.min_eq_left ((Nat.le_div_iff_mul_le hw).mpr h)

end Fields

/-! ### HEXDECA -/

section LatchedFields

variable (s : State) {p : List Byte} {n w : Nat} {k : Fin maxN}

theorem State.latchFields_doutVals_of_complete (hk : k.val < completeFields n w p.length) :
    (s.latchFields n w p).doutVals[k] = BitVec.ofNat 32 (fieldValue (fieldAt w k p)) := by
  simp [hk]

theorem State.latchFields_doutMasks_of_complete (hk : k.val < completeFields n w p.length) :
    (s.latchFields n w p).doutMasks[k] = BitVec.ofNat 8 (fieldMask (fieldAt w k p)) := by
  simp [hk]

theorem State.latchFields_of_incomplete (hk : completeFields n w p.length ≤ k.val) :
    (s.latchFields n w p).doutVals[k] = 0 ∧ (s.latchFields n w p).doutMasks[k] = 0 := by
  simp [Nat.not_lt.mpr hk]

end LatchedFields

section Status

variable {p : List Byte} {n w : Nat}

theorem hexdecaStatus_of_short (h : p.length < n * w) : hexdecaStatus n w p = .truncated := by
  simp [hexdecaStatus, payloadShort, h]

theorem hexdecaStatus_of_invalid (h : n * w ≤ p.length) (hinv : someFieldInvalid n w p = true) :
    hexdecaStatus n w p = .invalidHex := by
  simp [hexdecaStatus, payloadShort, Nat.not_lt.mpr h, hinv]

theorem hexdecaStatus_of_valid (h : n * w ≤ p.length) (hinv : ¬someFieldInvalid n w p = true) :
    hexdecaStatus n w p = .ok := by
  simp [hexdecaStatus, payloadShort, Nat.not_lt.mpr h, hinv]

end Status

/-- Settles O21: the refusals and the completion are HEXDECA's cases; entry `k` is the field spelled from character `k * w` on
when that field is complete and 0 otherwise, and a payload that is not short holds all `n` fields. -/
theorem hexdecaResult : Obligations.HexdecaResult := by
  intro src n w s
  refine ⟨exec_hexdeca_of_refused, fun hw1 hw8 hn1 hn16 hbuf => ⟨_, exec_hexdeca_of_legal hw1 hw8 hn1 hn16 hbuf, ?_⟩⟩
  have hp := spells_sourceString src s
  simp only [← length_sourceString src s]
  generalize sourceString src s = p at hp ⊢
  have hinv := hp.someFieldInvalid_iff (n := n) hw1
  refine ⟨rfl, fun k hk => ?field, fun k => s.latchFields_of_incomplete, ?inv, ?trunc, ?excess, hexdecaStatus_of_short,
    fun h hchar => hexdecaStatus_of_invalid h ?invalid, fun h hall => hexdecaStatus_of_valid h ?valid⟩
  case field =>
    have hfield := hp.fieldAt hk
    have hw : (fieldAt w k p).length = w := length_fieldAt hk
    refine ⟨?value, fun i => ?mask⟩
    case value =>
      rw [State.setStatus_doutVals, State.latchFields_doutVals_of_complete s hk, toNat_ofNat_fieldValue (by omega),
        hfield.fieldValue_eq, hw]
    case mask =>
      rw [State.setStatus_doutMasks, State.latchFields_doutMasks_of_complete s hk, getLsbD_ofNat_fieldMask (by omega),
        hfield.testBit_fieldMask_iff, hw]
  case inv => exact (getLsbD_flagsWord_inv _ _ _).congr_left.trans hinv
  case trunc => exact (getLsbD_flagsWord_trunc _ _ _).congr_left.trans decide_eq_true_iff
  case excess => exact (getLsbD_flagsWord_excess _ _ _).congr_left.trans decide_eq_true_iff
  case invalid => rwa [hinv, completeFields_of_long hw1 h]
  case valid =>
    rw [hinv, completeFields_of_long hw1 h]
    exact fun ⟨i, hi, hchar⟩ => hchar (hall i hi)

end Sys2Proof.Machine
end

section
/-! PROOFS. Two ways to one result in the hex codec (spec/40_hex_codec.md R76 to R79): O22, O23 and O24. -/

namespace Sys2Proof.Machine

/-! ### Encoding, then decoding -/

/-- The character of weight `16^w` stands before the field of width `w`. -/
theorem hexField_succ (w : Nat) (v : Value) : hexField (w + 1) v = hexChar (v.extractLsb' (4 * w) 4) :: hexField w v := by
  simp [hexField, List.range_succ_eq_map, Function.comp_def, Nat.sub_sub, Nat.add_comm]

/-- A field of width `w` holds the value's low `w` digits. -/
theorem fieldValue_hexField (w : Nat) (v : Value) : fieldValue (hexField w v) = v.toNat % 16 ^ w := by
  induction w with
  | zero => simp [hexField, Nat.mod_one]
  | succ w ih =>
    rw [hexField_succ, fieldValue_cons, digitOf_hexChar, toNat_extractLsb'_digit, length_hexField, ih, Nat.mod_pow_succ]
    ring

/-- The string read back from `DOUT_BYTES` over its `DOUT_LEN` leading bytes is the string latched. -/
theorem firstBytes_latchBytes (s : State) (f : List Byte) :
    firstBytes (s.latchBytes f).doutLen (s.latchBytes f).doutBytes = f := by
  rw [State.latchBytes_doutLen, State.latchBytes_doutBytes, overlay, firstBytes_length_append]

/-- Settles O22: HEXDEC reads back the field HEXENC wrote, which is valid throughout and has the value of its digits. -/
theorem hexRoundTrip : Obligations.HexRoundTrip := by
  intro w s h1 h8 hv
  refine ⟨_, _, exec_hexenc_of_fits h1 h8 hv, exec_hexdec_of_legal .ports ?_ ?_, ?_⟩
  · simpa [sourceLen] using h1
  · simpa [sourceLen] using h8
  have hfield := firstBytes_latchBytes s (hexField w s.din.val)
  simp only [sourceString, Ports.string, State.setStatus_doutLen, State.setStatus_doutBytes, hfield]
  refine ⟨?value, ?mask, hexdecStatus_of_valid (fieldMask_hexField w _)⟩
  case value =>
    rw [State.setStatus_doutVal, State.latchField_doutVal, fieldValue_hexField, Nat.mod_eq_of_lt hv,
      BitVec.ofNat_toNat, BitVec.setWidth_eq]
  case mask =>
    rw [State.setStatus_doutMask, State.latchField_doutMask, fieldMask_hexField]
    rfl

/-! ### Valid fields -/

/-- A hex character is the character of its digit. -/
theorem hexChar_digitOf (b : Byte) (h : isHex b = true) : hexChar (BitVec.ofNat 4 (digitOf b)) = b := by
  revert b; decide +kernel

theorem digitOf_injOn {b c : Byte} (hb : isHex b = true) (hc : isHex c = true) (h : digitOf b = digitOf c) : b = c := by
  rw [← hexChar_digitOf b hb, ← hexChar_digitOf c hc, h]

/-- No lower-case letter is a hex character (R59). -/
theorem not_lowerCase_of_isHex (b : Byte) (h : isHex b = true) : ¬(0x61 ≤ b.toNat ∧ b.toNat ≤ 0x66) := by
  revert b; decide +kernel

/-- Valid strings of one length with one value are one string: the first digit is the quotient by `16^n`, the rest the
remainder. -/
theorem eq_of_fieldValue_eq {f g : List Byte} (hf : ∀ b ∈ f, isHex b = true) (hg : ∀ b ∈ g, isHex b = true)
    (hlen : f.length = g.length) (h : fieldValue f = fieldValue g) : f = g := by
  induction f generalizing g with
  | nil => exact (List.eq_nil_of_length_eq_zero hlen.symm).symm
  | cons b f ih =>
    cases g with
    | nil => simp at hlen
    | cons c g =>
      obtain ⟨hb, hf⟩ := List.forall_mem_cons.mp hf
      obtain ⟨hc, hg⟩ := List.forall_mem_cons.mp hg
      have hlen' : f.length = g.length := by simpa using hlen
      have hrest := fieldValue_lt f
      have hrest' := fieldValue_lt g
      rw [fieldValue_cons, fieldValue_cons, hlen'] at h
      rw [hlen'] at hrest
      have hdigit : digitOf b = digitOf c := by
        have hquotient := congrArg (· / 16 ^ g.length) h
        simpa [Nat.add_div_of_dvd_right, Nat.div_eq_of_lt, hrest, hrest', Nat.mul_add_div] using hquotient
      have hvalue : fieldValue f = fieldValue g := by
        rw [hdigit] at h
        exact Nat.add_left_cancel h
      rw [digitOf_injOn hb hc hdigit, ih hf hg hlen' hvalue]

/-- HEXDEC answers OK only on a string of legal length of hex characters, with the string's value. -/
theorem hexdec_ok {s t : State} {src : Source} (hexec : exec (.hexdec src) s = .next t) (hok : t.status = .ok) :
    (∀ b ∈ sourceString src s, isHex b = true) ∧ t.doutVal.toNat = fieldValue (sourceString src s) := by
  by_cases hn : 1 ≤ sourceLen src s ∧ sourceLen src s ≤ 8
  · rw [exec_hexdec_of_legal src hn.1 hn.2] at hexec
    obtain rfl := Host.Outcome.next.inj hexec
    have hmask : fieldMask (sourceString src s) = 0 := by
      by_contra hne
      rw [State.setStatus_status, hexdecStatus_of_invalid hne] at hok
      cases hok
    exact ⟨(fieldMask_eq_zero_iff _).mp hmask, toNat_ofNat_fieldValue (by simpa using hn.2)⟩
  · rw [exec_hexdec_of_illegal_length src hn] at hexec
    obtain rfl := Host.Outcome.next.inj hexec
    cases hok

/-- Settles O23: both strings are valid with the values HEXDEC wrote, so equal lengths and values make them one string. -/
theorem validFieldsAreInjective : Obligations.ValidFieldsAreInjective := by
  intro s₁ s₂ t₁ t₂ hexec₁ hexec₂ hok₁ hok₂
  obtain ⟨hhex₁, hval₁⟩ := hexdec_ok hexec₁ hok₁
  obtain ⟨hhex₂, hval₂⟩ := hexdec_ok hexec₂ hok₂
  constructor
  · intro hlen hval i hi
    have hstring : s₁.din.string = s₂.din.string :=
      eq_of_fieldValue_eq hhex₁ hhex₂ (by simpa using hlen) (hval₁.symm.trans ((congrArg BitVec.toNat hval).trans hval₂))
    rw [← Option.some_inj, ← Ports.getElem?_string _ hi, ← Ports.getElem?_string _ (hlen ▸ hi), hstring]
  · intro i hi
    exact not_lowerCase_of_isHex _ (hhex₁ _ (List.mem_of_getElem? (Ports.getElem?_string _ hi)))

/-! ### One field -/

@[simp] theorem fieldAt_length_zero (p : List Byte) : fieldAt p.length 0 p = p := by simp [fieldAt]

/-- A payload of one field holds one complete field. -/
theorem completeFields_one_length {p : List Byte} (h : 1 ≤ p.length) : completeFields 1 p.length p.length = 1 :=
  completeFields_of_long h (by omega)

theorem hexdecaFlags_one_length {p : List Byte} (h : 1 ≤ p.length) : hexdecaFlags 1 p.length p = hexdecFlags p := by
  simp [hexdecaFlags, hexdecFlags, payloadLong, payloadShort, someFieldInvalid, completeFields_one_length h]

theorem hexdecaStatus_one_length {p : List Byte} (h : 1 ≤ p.length) : hexdecaStatus 1 p.length p = hexdecStatus p := by
  simp [hexdecaStatus, hexdecStatus, payloadShort, someFieldInvalid, completeFields_one_length h]

/-- Settles O24: the one field is the whole payload. -/
theorem singleFieldHexdecaAgreesWithHexdec : Obligations.SingleFieldHexdecaAgreesWithHexdec := by
  intro src s h1 h8 hbuf
  refine ⟨_, _, exec_hexdeca_of_legal h1 h8 le_rfl (by omega) hbuf, exec_hexdec_of_legal src h1 h8, ?_⟩
  simp only [← length_sourceString src s] at h1 ⊢
  generalize sourceString src s = p at h1 ⊢
  have hcomplete := completeFields_one_length h1
  refine ⟨?vals, ?masks, hexdecaFlags_one_length h1, hexdecaStatus_one_length h1, hcomplete⟩
  case vals =>
    have hvals := s.latchFields_doutVals_of_complete (p := p) (n := 1) (w := p.length) (k := ⟨0, by decide⟩)
      (hcomplete.symm ▸ Nat.one_pos)
    rw [fieldAt_length_zero] at hvals
    exact (Vector.getElem?_eq_getElem (by decide)).trans (congrArg some hvals)
  case masks =>
    have hmasks := s.latchFields_doutMasks_of_complete (p := p) (n := 1) (w := p.length) (k := ⟨0, by decide⟩)
      (hcomplete.symm ▸ Nat.one_pos)
    rw [fieldAt_length_zero] at hmasks
    exact (Vector.getElem?_eq_getElem (by decide)).trans (congrArg some hmasks)

end Sys2Proof.Machine
end

section
/-! PROOFS. Which ports an operation reads (spec/10_state.md R19; spec/92_eei_decisions.md D9): O18 and O25. -/

namespace Sys2Proof.Machine

variable {s : State} {d : Ports}

/-! ### The two sources -/

/-- HEXDEC depends on the string its source holds and on nothing else of the ports. -/
theorem exec_hexdec_of_same_string {src src' : Source}
    (h : sourceString src' { s with din := d } = sourceString src s) :
    ∃ t, exec (.hexdec src) s = .next t ∧ exec (.hexdec src') { s with din := d } = .next { t with din := d } := by
  have hlen : sourceLen src' { s with din := d } = sourceLen src s := by
    rw [← length_sourceString, ← length_sourceString, h]
  simp only [exec, execHexdec, h, hlen]
  split_ifs <;> exact ⟨_, rfl, rfl⟩

/-- HEXDECA depends on the string its source holds, on whether that is too long, and on nothing else of the ports. -/
theorem exec_hexdeca_of_same_string {src src' : Source} (n w : Nat)
    (h : sourceString src' { s with din := d } = sourceString src s)
    (hlong : sourceTooLong src' { s with din := d } = sourceTooLong src s) :
    ∃ t, exec (.hexdeca src n w) s = .next t
      ∧ exec (.hexdeca src' n w) { s with din := d } = .next { t with din := d } := by
  simp only [exec, execHexdeca, h, hlong]
  split_ifs <;> exact ⟨_, rfl, rfl⟩

/-- Settles O25: the ports carry the payload's string, and neither is too long. -/
theorem payloadSourceEqualsCopiedPayload : Obligations.PayloadSourceEqualsCopiedPayload := by
  intro s hfits d
  have hstring : sourceString .ports { s with din := d } = sourceString .payload s := rfl
  have hlong : sourceTooLong .ports { s with din := d } = sourceTooLong .payload s := decide_eq_false (Nat.not_lt.mpr hfits)
  exact ⟨exec_hexdec_of_same_string hstring, fun n w => exec_hexdeca_of_same_string n w hstring hlong⟩

/-! ### The ports an operation does not read -/

theorem Ports.string_congr {d e : Ports} (hlen : d.len = e.len)
    (hbytes : ∀ k, k < d.len → d.bytes.getD k 0x00#8 = e.bytes.getD k 0x00#8) : d.string = e.string := by
  rw [string, string, ← hlen]
  exact firstBytes_congr d.len d.bytes e.bytes hbytes

/-- Settles O18: each operation's answer is written with the ports it reads, as the strings they hold, and with no other. -/
theorem onlyNamedPortsAreRead : Obligations.OnlyNamedPortsAreRead := by
  rintro i s d ⟨hval, hstring, hmnem, hcfg⟩
  cases i with
  | hexenc w =>
    simp only [exec, execHexenc, ← hval rfl]
    split_ifs <;> exact ⟨_, rfl, rfl⟩
  | hexdec src =>
    cases src with
    | ports =>
      obtain ⟨hlen, hbytes⟩ := hstring rfl
      exact exec_hexdec_of_same_string (Ports.string_congr hlen hbytes).symm
    | payload => exact exec_hexdec_of_same_string rfl
  | hexdeca src n w =>
    cases src with
    | ports =>
      obtain ⟨hlen, hbytes⟩ := hstring rfl
      exact exec_hexdeca_of_same_string n w (Ports.string_congr hlen hbytes).symm (by simp [sourceTooLong, hlen])
    | payload => exact exec_hexdeca_of_same_string n w rfl rfl
  | cfgdec =>
    simp only [exec, execCfgdec, ← hval rfl]
    split_ifs <;> exact ⟨_, rfl, rfl⟩
  | cfgenc =>
    simp only [exec, execCfgenc, ← hcfg rfl]
    split <;> exact ⟨_, rfl, rfl⟩
  | settgt =>
    simp only [exec, execSettgt, ← hval rfl]
    split_ifs <;> exact ⟨_, rfl, rfl⟩
  | addrdec =>
    simp only [exec, execAddrdec, ← hval rfl]
    split_ifs <;> exact ⟨_, rfl, rfl⟩
  | frmbld sel =>
    obtain ⟨hlen, hbytes⟩ := hstring rfl
    simp only [exec, execFrmbld, ← hlen, ← hmnem rfl, ← Ports.string_congr hlen hbytes]
    split_ifs <;> exact ⟨_, rfl, rfl⟩
  | prstart => exact ⟨_, rfl, rfl⟩
  | prbyte =>
    simp only [exec, execPrbyte, ← hval rfl]
    split_ifs <;> exact ⟨_, rfl, rfl⟩
  | prend => exact ⟨_, rfl, rfl⟩
  | parse =>
    obtain ⟨hlen, hbytes⟩ := hstring rfl
    simp only [exec, execParse, ← hlen, ← Ports.string_congr hlen hbytes]
    split_ifs <;> exact ⟨_, rfl, rfl⟩

end Sys2Proof.Machine
end

section
/-! PROOFS. Encoding against decoding in the other codecs (spec/41_channel_config.md R83, R84; spec/30_encoding.md R64): O28,
O29 and O33. -/

namespace Sys2Proof.Machine

/-! ### The configuration word under `ICD` -/

/-- Bit 1 of a word is given back by the signal's flag (R60). -/
theorem signalBit_of_son_eq {c : ChannelConfig} {x : Bool} (h : c.son = (x == c.lp)) : signalBit c = x := by
  cases x <;> cases hlp : c.lp <;> simp [signalBit, h, hlp]

/-- The signal's flag is given back by bits 1 and 0 (R60). -/
theorem signalBit_beq_lp (c : ChannelConfig) : (signalBit c == c.lp) = c.son := by
  cases hlp : c.lp <;> cases hson : c.son <;> simp [signalBit, hlp, hson]

/-- An attenuator of a decoded word, bit by bit (R62). -/
theorem getLsbD_decodeConfig_a1 (layout : CfgLayout) (w : ConfigWord) {i : Nat} (h : i < 6) :
    (decodeConfig layout w).a1.getLsbD i = w.getLsbD (8 - i) := getLsbD_rev6_extractLsb' w 3 h

theorem getLsbD_decodeConfig_icd_a2 (w : ConfigWord) {i : Nat} (h : i < 6) :
    (decodeConfig .icd w).a2.getLsbD i = w.getLsbD (14 - i) := getLsbD_rev6_extractLsb' w 9 h

/-- Encoding the fields of a word gives the word back, bit by bit (R83). -/
theorem encodeConfig_decodeConfig_icd (w : ConfigWord) : encodeConfig (decodeConfig .icd w) = w := by
  refine BitVec.eq_of_getElem_eq fun i hi => ?_
  rw [getElem_encodeConfig _ i hi, ← BitVec.getLsbD_eq_getElem hi]
  split_ifs with h0 h1 h2 h3 h4
  · subst h0; rfl
  · subst h1; exact signalBit_of_son_eq rfl
  · subst h2; rfl
  · rw [getLsbD_decodeConfig_a1 _ _ (by omega), show 8 - (8 - i) = i by omega]
  · rw [getLsbD_decodeConfig_icd_a2 _ (by omega), show 14 - (14 - i) = i by omega]
  · obtain rfl : i = 15 := by omega
    rfl

theorem ChannelConfig.eq_of_fields {c d : ChannelConfig} (hlp : c.lp = d.lp) (hson : c.son = d.son) (hhp : c.hp = d.hp)
    (ha1 : c.a1 = d.a1) (ha2 : c.a2 = d.a2) (hdc : c.dc = d.dc) : c = d := by
  cases c; cases d; simp_all

/-- Decoding the word of some fields gives the fields back (R83). -/
theorem decodeConfig_icd_encodeConfig (c : ChannelConfig) : decodeConfig .icd (encodeConfig c) = c := by
  have bit (i : Nat) (hi : i < 16) : (encodeConfig c).getLsbD i = _ :=
    (BitVec.getLsbD_eq_getElem hi).trans (getElem_encodeConfig c i hi)
  refine ChannelConfig.eq_of_fields (bit 0 (by omega)) ?son (bit 2 (by omega)) (BitVec.eq_of_getLsbD_eq fun i hi => ?a1)
    (BitVec.eq_of_getLsbD_eq fun i hi => ?a2) (bit 15 (by omega))
  case son =>
    simp only [decodeConfig]
    rw [bit 1 (by omega), bit 0 (by omega)]
    exact signalBit_beq_lp c
  case a1 =>
    rw [getLsbD_decodeConfig_a1 _ _ hi, bit _ (by omega), if_neg (by omega), if_neg (by omega), if_neg (by omega),
      if_pos (by omega), show 8 - (8 - i) = i by omega]
  case a2 =>
    rw [getLsbD_decodeConfig_icd_a2 _ hi, bit _ (by omega), if_neg (by omega), if_neg (by omega), if_neg (by omega),
      if_neg (by omega), if_pos (by omega), show 14 - (14 - i) = i by omega]

/-- The low half of a value that fits in it. -/
theorem setWidth_extractLsb'_low {v : Value} (h : v.toNat < 2 ^ 16) : (v.extractLsb' 0 16).setWidth 32 = v := by
  rw [← BitVec.toNat_inj, BitVec.toNat_setWidth_of_le (by omega), toNat_extractLsb'_low, Nat.mod_eq_of_lt h]

/-- A configuration word zero-extended fits in its low half, and is that half. -/
theorem toNat_setWidth_configWord_lt (w : ConfigWord) : (w.setWidth 32).toNat < 2 ^ 16 := by
  rw [BitVec.toNat_setWidth_of_le (by omega)]
  exact w.isLt

theorem extractLsb'_low_setWidth (w : ConfigWord) : (w.setWidth 32).extractLsb' 0 16 = w := by
  rw [← BitVec.toNat_inj, toNat_extractLsb'_low, BitVec.toNat_setWidth_of_le (by omega), Nat.mod_eq_of_lt w.isLt]

/-- Settles O28: the two directions are the codec's two inverse laws, the word standing in the low half of `DIN_VAL`. -/
theorem configRoundTrip : Obligations.ConfigRoundTrip := by
  intro s hicd
  constructor
  · intro hfits
    refine ⟨_, _, exec_cfgdec_of_fits hfits, exec_cfgenc_of_icd hicd, ?_⟩
    simp only [State.setStatus_doutVal, State.latchValue_doutVal, State.setStatus_doutCfg, State.latchConfig_doutCfg, hicd]
    rw [encodeConfig_decodeConfig_icd, setWidth_extractLsb'_low hfits]
  · refine ⟨_, _, exec_cfgenc_of_icd hicd, exec_cfgdec_of_fits (toNat_setWidth_configWord_lt _), ?_⟩
    simp only [State.setStatus_doutVal, State.latchValue_doutVal, State.setStatus_doutCfg, State.latchConfig_doutCfg,
      State.setStatus_params, State.latchValue_params, hicd]
    rw [extractLsb'_low_setWidth, decodeConfig_icd_encodeConfig]

/-! ### The configuration word under `IMPL` -/

/-- Under `IMPL` the fields are read from bits 13 to 0 alone (R61, R84). -/
theorem decodeConfig_impl_congr {v w : ConfigWord} (h : ∀ i, i < 14 → v.getLsbD i = w.getLsbD i) :
    decodeConfig .impl v = decodeConfig .impl w := by
  refine ChannelConfig.eq_of_fields (h 0 (by omega)) ?son (h 2 (by omega)) (BitVec.eq_of_getLsbD_eq fun i hi => ?a1)
    (BitVec.eq_of_getLsbD_eq fun i hi => ?a2) (h 7 (by omega))
  case son => simp only [decodeConfig, h 0 (by omega), h 1 (by omega)]
  case a1 => rw [getLsbD_decodeConfig_a1 _ _ hi, getLsbD_decodeConfig_a1 _ _ hi, h _ (by omega)]
  case a2 =>
    exact (getLsbD_rev6_extractLsb' v 8 hi).trans ((h _ (by omega)).trans (getLsbD_rev6_extractLsb' w 8 hi).symm)

/-- Values equal modulo `2^14` have one bit at each position below 14. -/
theorem getLsbD_eq_of_mod_eq {v w : Value} (h : v.toNat % 2 ^ 14 = w.toNat % 2 ^ 14) {i : Nat} (hi : i < 14) :
    v.getLsbD i = w.getLsbD i := by
  have hbit (x : Value) : (x.toNat % 2 ^ 14).testBit i = x.getLsbD i := by
    rw [Nat.testBit_mod_two_pow, decide_eq_true hi, Bool.true_and, BitVec.getLsbD]
  rw [← hbit v, ← hbit w, h]

/-- CFGDEC under `IMPL` of a state with `DIN_VAL` driven to a word. -/
theorem doutCfg_of_cfgdec_impl {s t : State} (himpl : s.params.layout = .impl) (hfits : s.din.val.toNat < 2 ^ 16)
    (hexec : exec .cfgdec s = .next t) : t.doutCfg = decodeConfig .impl (s.din.val.extractLsb' 0 16) := by
  rw [exec_cfgdec_of_fits hfits, himpl] at hexec
  obtain rfl := Host.Outcome.next.inj hexec
  rfl

/-- A block built with the `IMPL` layout, right after reset, `DIN_VAL` driven to `v`. -/
def implState (v : Value) : State :=
  { State.resetOf { BuildParams.arxc with layout := .impl } with din := { Ports.zero with val := v } }

/-- Settles O29: under `IMPL` bits 15 and 14 are not read, so 0x0000 and 0xC000 decode alike and an encoder would have to give
both back from one field combination. -/
theorem implLayoutHasNoEncoder : Obligations.ImplLayoutHasNoEncoder := by
  have alike : ∀ s t u : State, s.params.layout = .impl → ∀ v : Value, s.din.val.toNat < 2 ^ 16 → v.toNat < 2 ^ 16 →
      s.din.val.toNat % 2 ^ 14 = v.toNat % 2 ^ 14 → exec .cfgdec s = .next t →
        exec .cfgdec { s with din := { s.din with val := v } } = .next u → t.doutCfg = u.doutCfg := by
    intro s t u himpl v hs hv hmod ht hu
    rw [doutCfg_of_cfgdec_impl himpl hs ht,
      doutCfg_of_cfgdec_impl (s := { s with din := { s.din with val := v } }) himpl hv hu]
    refine decodeConfig_impl_congr fun i hi => ?_
    rw [getLsbD_configWord _ (by omega), getLsbD_configWord _ (by omega)]
    exact getLsbD_eq_of_mod_eq hmod hi
  refine ⟨alike, ?_, fun s => exec_cfgenc_of_impl⟩
  rintro ⟨enc, henc⟩
  have hzero := exec_cfgdec_of_fits (s := implState 0x0000) (by decide)
  have hhigh := exec_cfgdec_of_fits (s := implState 0xC000) (by decide)
  have hsame := alike _ _ _ rfl 0xC000 (by decide) (by decide) (by decide) hzero hhigh
  have hback := henc _ _ rfl (by decide) hzero
  rw [hsame, henc _ _ rfl (by decide) hhigh] at hback
  exact absurd hback (by decide)

/-! ### The address byte -/

/-- A frame's first byte is the address byte. -/
theorem getElem?_latchBytes_commandFrame (s : State) (a : BitVec 7) (mnem : Vector Byte 4) (args : List Byte) :
    (s.latchBytes (commandFrame a mnem args)).doutBytes[0]? = some (addressByte a) := by
  rw [State.latchBytes_doutBytes, getElem?_overlay_lt _ _ _ (by simp), getElem?_commandFrame_address]

theorem toNat_setWidth_addressByte (a : BitVec 7) : ((addressByte a).setWidth 32).toNat = 128 + a.toNat := by
  rw [BitVec.toNat_setWidth_of_le (by omega), toNat_addressByte]

/-- The low seven bits of the address byte are the address (R64, R87). -/
theorem extractLsb'_addressByte (a : BitVec 7) : ((addressByte a).setWidth 32).extractLsb' 0 7 = a := by
  rw [← BitVec.toNat_inj, toNat_extractLsb'_low, toNat_setWidth_addressByte]
  omega

/-- Bit 7 of the address byte is set (R63, R87). -/
theorem getLsbD_seven_addressByte (a : BitVec 7) : ((addressByte a).setWidth 32).getLsbD 7 = true := by
  rw [getLsbD_seven_iff (by rw [toNat_setWidth_addressByte]; omega), toNat_setWidth_addressByte]
  omega

/-- Settles O33: the first byte of the frame is the address byte, a value below 256 from which ADDRDEC reads the address. -/
theorem addressByteRoundTrip : Obligations.AddressByteRoundTrip := by
  intro sel s hbuf hargs
  have hbyte : ((addressByte (selectedAddress sel s)).setWidth 32).toNat < 256 := by
    rw [toNat_setWidth_addressByte]
    omega
  refine ⟨_, _, _, exec_frmbld_of_fits sel hbuf hargs, getElem?_latchBytes_commandFrame _ _ _ _,
    exec_addrdec_of_fits hbyte, rfl, getLsbD_seven_addressByte _, ?_, ?_⟩
  · rintro rfl
    exact extractLsb'_addressByte _
  · rintro rfl
    exact extractLsb'_addressByte _

end Sys2Proof.Machine
end

section
/-! PROOFS. PARSE against the byte-at-a-time requests and against other histories of the parser (spec/42_frame_codec.md R96):
O38 and O39. -/

namespace Sys2Proof.Machine

/-! ### PARSE as a run of requests -/

/-- `u` is `s` after PRBYTE of each of `bytes`: the parser has taken them, the inputs to come are `rest`. -/
def AfterBytes (s : State) (bytes : List Byte) (rest : List Event) (u : State) : Prop :=
  u = { s with
    parser := bytes.foldl (pstep s.params.maxPayload) s.parser
    status := u.status, din := u.din, pending := rest }

/-- A PRBYTE request of the byte `b` (R94). -/
def byteRequest (din : Ports) (b : Byte) : Event := .request 0x000A#16 { din with val := b.setWidth 32 }

theorem streamRequests_eq (din : Ports) :
    streamRequests din = .request 0x0009#16 din :: (din.string.map (byteRequest din) ++ [.request 0x000B#16 din]) := rfl

theorem AfterBytes.cons {s v u : State} {b : Byte} {bytes : List Byte} {rest rest' : List Event}
    (hv : AfterBytes s [b] rest' v) (hu : AfterBytes v bytes rest u) : AfterBytes s (b :: bytes) rest u := by
  refine Eq.trans hu ?_
  unfold AfterBytes at hv
  rw [hv]
  rfl

section Requests

variable {s : State} {din : Ports} {rest : List Event}

theorem step_of_byteRequest {b : Byte} (h : s.pending = byteRequest din b :: rest) :
    ∃ u, step s = .next u ∧ AfterBytes s [b] rest u := by
  refine ⟨_, (step_of_decoded_request h rfl).trans (exec_prbyte_of_byte (b := b) ?_), rfl⟩
  exact BitVec.toNat_setWidth_of_le (by omega)

theorem step_of_prstartRequest (h : s.pending = .request 0x0009#16 din :: rest) :
    step s = .next (((s.present din rest).setParser (pinit s.parser)).setStatus .ok) :=
  (step_of_decoded_request h rfl).trans (exec_prstart _)

theorem step_of_prendRequest (h : s.pending = .request 0x000B#16 din :: rest) :
    step s = .next (((s.present din rest).setParser (pend s.parser)).setStatus .ok) :=
  (step_of_decoded_request h rfl).trans (exec_prend _)

theorem step_of_parseRequest (h : s.pending = .request 0x000C#16 din :: rest) (hfits : din.len ≤ s.params.maxBuf) :
    step s =
      .next (((s.present din rest).setParser (parseBytes s.params.maxPayload din.string s.parser)).setStatus .ok) :=
  (step_of_decoded_request h rfl).trans (exec_parse_of_fits hfits)

end Requests

/-- The requests of a byte string, one step each, feed the string to the parser. -/
theorem core_run_byteRequests (din : Ports) (rest : List Event) (k : Nat) (bytes : List Byte) :
    ∀ s : State, s.pending = bytes.map (byteRequest din) ++ rest →
      ∃ u, Sys2Proof.core.run (bytes.length + k) s = Sys2Proof.core.run k u ∧ AfterBytes s bytes rest u := by
  induction bytes with
  | nil =>
    rintro s rfl
    exact ⟨s, by rw [List.length_nil, Nat.zero_add], rfl⟩
  | cons b bytes ih =>
    intro s h
    obtain ⟨v, hstep, hv⟩ := step_of_byteRequest h
    obtain ⟨u, hrun, hu⟩ := ih v (congrArg State.pending hv)
    refine ⟨u, ?_, hv.cons hu⟩
    rw [List.length_cons, Nat.add_right_comm, core_run_succ_of_step _ hstep, hrun]

/-- Settles O38: PRSTART is PINIT, the PRBYTE requests feed the bytes, PREND is PEND, and PARSE is the three in one. -/
theorem parseEqualsByteStream : Obligations.ParseEqualsByteStream := by
  intro s hfits
  have hstart := step_of_prstartRequest (s := { s with pending := streamRequests s.din }) (streamRequests_eq s.din)
  obtain ⟨v, hrun, hv⟩ := core_run_byteRequests s.din [.request 0x000B#16 s.din] 1 s.din.string
    ((({ s with pending := streamRequests s.din } : State).present s.din _).setParser (pinit s.parser) |>.setStatus .ok) rfl
  have hend := step_of_prendRequest (congrArg State.pending hv)
  have hstream := (core_run_succ_of_step _ hstart).trans (hrun.trans (core_run_succ_of_step 0 hend))
  rw [Ports.length_string] at hstream
  refine ⟨_, _, step_of_parseRequest rfl hfits, hstream, ?registers, rfl⟩
  case registers =>
    unfold AfterBytes at hv
    rw [hv]
    rfl

/-! ### Two histories -/

/-- Two parsers that differ at most in the bytes of `PBUF` from `PLEN` on (R32, R89). -/
structure Parser.Alike (p q : Parser) : Prop where
  registers : p = { q with pbuf := p.pbuf }
  payload : p.payload = q.payload

section Alike

variable {m : Nat} {p q : Parser} {b : Byte}

/-- A byte stored at the end of the payload. -/
theorem firstBytes_set (bs : List Byte) (b : Byte) {n : Nat} (h : n < bs.length) :
    firstBytes (n + 1) (bs.set n b) = firstBytes n bs ++ [b] := by
  rw [firstBytes_eq_take _ _ (by simpa using h), firstBytes_eq_take _ _ h.le, List.take_add_one, List.take_set_of_le le_rfl]
  simp [h]

/-- Outside ACKP a byte neither reads nor writes the payload and its length. -/
theorem pstep_of_ne_ackp (h : q.pst ≠ .ackp) (bs : List Byte) :
    pstep m { q with pbuf := bs } b = { pstep m q b with pbuf := bs } ∧ (pstep m q b).plen = q.plen
      ∧ (pstep m q b).pbuf = q.pbuf := by
  obtain ⟨pst, _⟩ := q
  cases pst with
  | ackp => exact absurd rfl h
  | scan => simp only [pstep, pstepScan]; split_ifs <;> exact ⟨rfl, rfl, rfl⟩
  | nak1 => simp only [pstep, pstepNak1]; split_ifs <;> exact ⟨rfl, rfl, rfl⟩
  | nak2 => simp only [pstep, pstepNak2]; split_ifs <;> exact ⟨rfl, rfl, rfl⟩
  | nakt => exact ⟨rfl, rfl, rfl⟩
  | done => exact ⟨rfl, rfl, rfl⟩

/-- In ACKP a byte is stored at one place of both payloads, or ends both. -/
theorem pstepAckp_alike (bs : List Byte) (hbs : bs.length = m) (hq : q.pbuf.length = m) (hlen : q.plen ≤ m)
    (h : firstBytes q.plen bs = firstBytes q.plen q.pbuf) :
    (pstepAckp m b { q with pbuf := bs }).Alike (pstepAckp m b q) := by
  unfold pstepAckp
  split_ifs with hb hfull
  · exact ⟨rfl, h⟩
  · exact ⟨rfl, h⟩
  · have hroom : q.plen < m := lt_of_le_of_ne hlen hfull
    have hleft := firstBytes_set bs b (hbs.symm ▸ hroom)
    have hright := firstBytes_set q.pbuf b (hq.symm ▸ hroom)
    exact ⟨rfl, hleft.trans (h ▸ hright.symm)⟩

theorem Parser.Alike.pstep (h : p.Alike q) (hp : p.Consistent m) (hq : q.Consistent m) (b : Byte) :
    (Machine.pstep m p b).Alike (Machine.pstep m q b) := by
  obtain ⟨hregisters, hpayload⟩ := h
  obtain ⟨hbs, -⟩ := hp
  obtain ⟨hbuf, hlen, -⟩ := hq
  generalize p.pbuf = bs at hregisters hbs
  subst hregisters
  by_cases hst : q.pst = .ackp
  · rw [pstep_of_ackp (by exact hst), pstep_of_ackp hst]
    exact pstepAckp_alike bs hbs hbuf hlen hpayload
  · obtain ⟨hstep, hplen, hpbuf⟩ := pstep_of_ne_ackp (m := m) (b := b) hst bs
    have hkept : firstBytes q.plen bs = firstBytes q.plen q.pbuf := hpayload
    rw [← hplen, ← hpbuf] at hkept
    rw [hstep]
    exact ⟨rfl, hkept⟩

theorem Parser.Alike.foldl_pstep (bytes : List Byte) (h : p.Alike q) (hp : p.Consistent m) (hq : q.Consistent m) :
    (bytes.foldl (Machine.pstep m) p).Alike (bytes.foldl (Machine.pstep m) q) := by
  induction bytes generalizing p q with
  | nil => exact h
  | cons b bytes ih => exact ih (h.pstep hp hq b) (pstep_consistent b hp) (pstep_consistent b hq)

theorem Parser.Alike.pend (h : p.Alike q) : (Machine.pend p).Alike (Machine.pend q) := by
  obtain ⟨hregisters, hpayload⟩ := h
  generalize p.pbuf = bs at hregisters
  subst hregisters
  exact ⟨rfl, hpayload⟩

/-- PINIT leaves nothing of a history but the bytes of `PBUF`. -/
theorem pinit_alike (p q : Parser) : (pinit p).Alike (pinit q) := ⟨rfl, rfl⟩

theorem parseBytes_alike (bytes : List Byte) (hp : p.pbuf.length = m) (hq : q.pbuf.length = m) :
    (parseBytes m bytes p).Alike (parseBytes m bytes q) :=
  ((pinit_alike p q).foldl_pstep bytes (pinit_consistent hp) (pinit_consistent hq)).pend

end Alike

/-- Settles O39: PARSE starts with PINIT, after which the two parsers are alike, and bytes and PEND keep them alike. -/
theorem parseDependsOnlyOnItsBytes : Obligations.ParseDependsOnlyOnItsBytes := by
  rintro s₁ s₂ t₁ t₂ ⟨-, -, -, -, -, hbuf₁, -⟩ ⟨-, -, -, -, -, hbuf₂, -⟩ hparams hstring hfits hexec₁ hexec₂
  have hlen : s₁.din.len = s₂.din.len := by rw [← Ports.length_string, hstring, Ports.length_string]
  rw [exec_parse_of_fits hfits] at hexec₁
  rw [exec_parse_of_fits (by rwa [← hlen, ← hparams])] at hexec₂
  obtain rfl := Host.Outcome.next.inj hexec₁
  obtain rfl := Host.Outcome.next.inj hexec₂
  rw [← hparams] at hbuf₂
  have halike := parseBytes_alike s₁.din.string hbuf₁ hbuf₂
  simp only [State.setStatus_parser, State.setParser_parser, ← hparams, ← hstring]
  exact ⟨halike.registers, halike.payload⟩

end Sys2Proof.Machine
end

section
/-! PROOFS. PARSE of whole frames (spec/30_encoding.md R65 to R69; spec/42_frame_codec.md R90, R91): ACK frames, overflowing
payloads, NAK frames and buffers with no control byte; O40, O41, O42 and O43. -/

namespace Sys2Proof.Machine

variable {m : Nat} {p q : Parser} {lead payload tail rest : List Byte}

/-! ### Leading bytes -/

/-- PARSE discards the bytes before the first control byte (R66, R90). -/
theorem parseBytes_of_lead (hlead : ∀ b ∈ lead, b ≠ ackByte ∧ b ≠ nakByte) (bytes : List Byte) (p : Parser) :
    parseBytes m (lead ++ bytes) p = pend (bytes.foldl (pstep m) (pinit p)) := by
  rw [parseBytes, List.foldl_append, foldl_pstep_scan rfl hlead]

/-- PARSE from the ACK byte on. -/
theorem parseBytes_ack (hlead : ∀ b ∈ lead, b ≠ ackByte ∧ b ≠ nakByte) (rest : List Byte) (p : Parser) :
    parseBytes m (lead ++ ackByte :: rest) p = pend (rest.foldl (pstep m) { pinit p with pst := .ackp }) := by
  rw [parseBytes_of_lead hlead, List.foldl_cons, pstep_scan_ack rfl rfl]

/-- PARSE of bytes with no control byte. -/
theorem parseBytes_of_no_control (hbytes : ∀ b ∈ lead, b ≠ ackByte ∧ b ≠ nakByte) (p : Parser) :
    parseBytes m lead p = { pinit p with pclass := .noResponse, pst := .done } := by
  have h := parseBytes_of_lead (m := m) hbytes [] p
  rwa [List.append_nil] at h

/-- Settles O43: with no control byte the parser stays in SCAN until PEND. -/
theorem noControlByteIsNoResponse : Obligations.NoControlByteIsNoResponse := by
  intro s hfits hbytes
  refine ⟨_, exec_parse_of_fits hfits, rfl, ?_⟩
  rw [State.setStatus_parser, State.setParser_parser, parseBytes_of_no_control hbytes]
  exact ⟨rfl, rfl, rfl, rfl, rfl, rfl, rfl⟩

/-! ### After the ACK byte -/

/-- A payload that fits is stored at the front of `PBUF` (R90). -/
theorem foldl_pstep_payload (hbuf : p.pbuf.length = m) (hpayload : ∀ b ∈ payload, ¬Terminator b)
    (hlen : payload.length ≤ m) :
    payload.foldl (pstep m) { pinit p with pst := .ackp } =
      { pinit p with pst := .ackp, pbuf := payload ++ p.pbuf.drop payload.length, plen := payload.length } := by
  have hterm : ∀ b ∈ payload, isTerm b = false := fun b hb =>
    Bool.eq_false_iff.mpr (mt (isTerm_iff b).mp (hpayload b hb))
  have h := foldl_pstep_ackp (m := m) (p := { pinit p with pst := .ackp }) rfl hterm
    (by simpa using hlen) (by simpa [hbuf] using hlen)
  simpa using h

/-- The end of an ACK frame: the end of the input, or a terminator and anything after it (R90, R91). -/
theorem pend_foldl_ackp (hst : q.pst = .ackp) (hpterm : q.pterm = false) (htail : tail = [] ∨ StartsWithTerminator tail) :
    pend (tail.foldl (pstep m) q) = { q with pclass := .ack, pst := .done, pterm := !tail.isEmpty } := by
  obtain rfl | ⟨b, rest, rfl, hb⟩ := htail
  · rw [List.foldl_nil, pend_of_pst rfl hst]
    simp [hpterm]
  · rw [List.foldl_cons, pstep_ackp_term hst hb, foldl_pstep_done rfl, pend_of_done rfl]
    rfl

/-- PARSE of an ACK frame whose payload fits. -/
theorem parseBytes_ackFrame (hlead : ∀ b ∈ lead, b ≠ ackByte ∧ b ≠ nakByte) (hbuf : p.pbuf.length = m)
    (hpayload : ∀ b ∈ payload, ¬Terminator b) (htail : tail = [] ∨ StartsWithTerminator tail) (hlen : payload.length ≤ m) :
    parseBytes m (lead ++ ackByte :: (payload ++ tail)) p =
      { pinit p with
        pclass := .ack, pst := .done, pterm := !tail.isEmpty
        pbuf := payload ++ p.pbuf.drop payload.length, plen := payload.length } := by
  rw [parseBytes_ack hlead, List.foldl_append, foldl_pstep_payload hbuf hpayload hlen, pend_foldl_ackp rfl rfl htail]

/-- Settles O40: the leading bytes are discarded, the payload is stored, and the tail ends the frame. -/
theorem ackFrameParses : Obligations.AckFrameParses := by
  rintro s lead payload tail ⟨-, -, -, -, -, hbuf, -⟩ hfits hstring hlead hpayload htail hlen
  have hparse := parseBytes_ackFrame hlead hbuf hpayload htail hlen
  rw [show lead ++ ackByte :: (payload ++ tail) = s.din.string from hstring.symm] at hparse
  refine ⟨_, exec_parse_of_fits hfits, rfl, ?_⟩
  rw [State.setStatus_parser, State.setParser_parser, hparse]
  exact ⟨rfl, rfl, rfl, List.take_left' rfl, by simp, rfl, rfl, rfl⟩

/-- PARSE of an ACK frame whose payload does not fit: its first byte beyond `MAX_PAYLOAD` ends the frame (R90, R103). -/
theorem parseBytes_overflow (hlead : ∀ b ∈ lead, b ≠ ackByte ∧ b ≠ nakByte) (hbuf : p.pbuf.length = m)
    (hpayload : ∀ b ∈ payload, ¬Terminator b) (hlen : payload.length = m) {b : Byte} (hb : ¬Terminator b)
    (rest : List Byte) :
    parseBytes m (lead ++ ackByte :: (payload ++ b :: rest)) p =
      { pinit p with pclass := .payloadOverflow, pst := .done, pbuf := payload, plen := m } := by
  have hdrop : p.pbuf.drop payload.length = [] := List.drop_eq_nil_of_le (by omega)
  rw [parseBytes_ack hlead, List.foldl_append, foldl_pstep_payload hbuf hpayload hlen.le, List.foldl_cons,
    pstep_ackp_full rfl hb hlen, foldl_pstep_done rfl, pend_of_done rfl, hdrop, List.append_nil, hlen]

/-- Settles O41: the first `MAX_PAYLOAD` bytes fill the buffer and the next one ends the frame. -/
theorem longPayloadOverflows : Obligations.LongPayloadOverflows := by
  rintro s lead payload tail ⟨-, -, -, -, -, hbuf, -⟩ hfits hstring hlead hpayload hlong
  have hsplit : payload ++ tail = payload.take s.params.maxPayload ++ payload[s.params.maxPayload] ::
      (payload.drop (s.params.maxPayload + 1) ++ tail) := by
    rw [← List.cons_append, ← List.append_assoc, ← List.drop_eq_getElem_cons, List.take_append_drop]
  have hparse := parseBytes_overflow hlead hbuf (fun b hb => hpayload b (List.mem_of_mem_take hb))
    (List.length_take_of_le hlong.le) (hpayload _ (List.getElem_mem hlong)) (payload.drop (s.params.maxPayload + 1) ++ tail)
  rw [← hsplit, show lead ++ ackByte :: (payload ++ tail) = s.din.string from hstring.symm] at hparse
  refine ⟨_, exec_parse_of_fits hfits, rfl, ?_⟩
  rw [State.setStatus_parser, State.setParser_parser, hparse]
  exact ⟨rfl, rfl, rfl, rfl, rfl⟩

/-! ### After the NAK byte -/

/-- The parser once the bytes `rest` after a NAK byte and the end of the input are taken. -/
def afterNak (m : Nat) (p : Parser) (rest : List Byte) : Parser :=
  pend (rest.foldl (pstep m) { pinit p with pst := .nak1 })

/-- PARSE from the NAK byte on. -/
theorem parseBytes_nak (hlead : ∀ b ∈ lead, b ≠ ackByte ∧ b ≠ nakByte) (rest : List Byte) (p : Parser) :
    parseBytes m (lead ++ nakByte :: rest) p = afterNak m p rest := by
  rw [afterNak, parseBytes_of_lead hlead, List.foldl_cons, pstep_scan_nak rfl rfl]

/-- From the NAK byte on the parser does not return to SCAN or ACKP (R90). -/
theorem pst_pstep_of_nak {b : Byte} (hscan : q.pst ≠ .scan) (hackp : q.pst ≠ .ackp) :
    (pstep m q b).pst ≠ .scan ∧ (pstep m q b).pst ≠ .ackp := by
  cases hst : q.pst with
  | scan => exact absurd hst hscan
  | ackp => exact absurd hst hackp
  | nak1 => rw [pstep_of_nak1 hst]; unfold pstepNak1; split_ifs <;> simp
  | nak2 => rw [pstep_of_nak2 hst]; unfold pstepNak2; split_ifs <;> simp
  | nakt => rw [pstep_of_nakt hst]; simp [pstepNakt]
  | done => rw [pstep_of_done hst]; simp [hst]

/-- From the NAK byte on no payload byte is stored. -/
theorem plen_foldl_of_nak (bytes : List Byte) (hscan : q.pst ≠ .scan) (hackp : q.pst ≠ .ackp) :
    (bytes.foldl (pstep m) q).plen = q.plen := by
  induction bytes generalizing q with
  | nil => rfl
  | cons b bytes ih =>
    obtain ⟨-, hplen, -⟩ := pstep_of_ne_ackp (m := m) (b := b) hackp []
    obtain ⟨hscan', hackp'⟩ := pst_pstep_of_nak (m := m) (b := b) hscan hackp
    rw [List.foldl_cons, ih hscan' hackp', hplen]

@[simp] theorem plen_afterNak (rest : List Byte) : (afterNak m p rest).plen = 0 :=
  plen_foldl_of_nak rest (by simp) (by simp)

/-- Bytes after a NAK verdict: the first says whether the frame was terminated, the rest are ignored (R90, R91). -/
theorem pend_foldl_nakt (hst : q.pst = .nakt) (hpterm : q.pterm = false) (rest : List Byte) :
    ∃ x, pend (rest.foldl (pstep m) q) = { q with pst := .done, pterm := x } ∧ (x = true ↔ StartsWithTerminator rest) := by
  cases rest with
  | nil =>
    refine ⟨false, ?_, ?_⟩
    · rw [List.foldl_nil, pend_of_nakt hst, ← hpterm]
    · simp [StartsWithTerminator]
  | cons b rest =>
    refine ⟨isTerm b, ?_, ?_⟩
    · rw [List.foldl_cons, pstep_of_nakt hst, foldl_pstep_done rfl, pend_of_done rfl]
      rfl
    · simp [StartsWithTerminator, isTerm_iff]

section Codes

variable (m p)

theorem afterNak_nil : afterNak m p [] = { pinit p with pclass := .malformedNak, pst := .done } :=
  pend_of_pst rfl rfl

theorem afterNak_one (r : List Byte) :
    ∃ x, afterNak m p (0x31#8 :: r) =
        { pinit p with pcode := 0x31#8, pclass := .nakNotRecognized, pst := .done, pterm := x }
      ∧ (x = true ↔ StartsWithTerminator r) := by
  rw [afterNak, List.foldl_cons, pstep_nak1_one rfl rfl]
  exact pend_foldl_nakt rfl rfl r

theorem afterNak_two (r : List Byte) :
    ∃ x, afterNak m p (0x32#8 :: r) = { pinit p with pcode := 0x32#8, pclass := .nakTooLong, pst := .done, pterm := x }
      ∧ (x = true ↔ StartsWithTerminator r) := by
  rw [afterNak, List.foldl_cons, pstep_nak1_two rfl rfl]
  exact pend_foldl_nakt rfl rfl r

/-- Any other code than '1', '2' and '3'; a terminator in its place ends the frame. -/
theorem afterNak_no_code {c : Byte} (hc : c.toNat < 0x31 ∨ 0x33 < c.toNat) (r : List Byte) :
    ∃ x, afterNak m p (c :: r) = { pinit p with pcode := c, pclass := .malformedNak, pst := .done, pterm := x }
      ∧ (x = true ↔ Terminator c ∨ StartsWithTerminator r) := by
  rw [afterNak, List.foldl_cons]
  by_cases ht : Terminator c
  · rw [pstep_nak1_term rfl ht, foldl_pstep_done rfl, pend_of_done rfl]
    exact ⟨true, rfl, by simp [ht]⟩
  · rw [pstep_nak1_other rfl hc ht, or_iff_right ht]
    exact pend_foldl_nakt rfl rfl r

theorem afterNak_three_nil :
    afterNak m p [0x33#8] = { pinit p with pcode := 0x33#8, pclass := .malformedNak, pst := .done } := by
  rw [afterNak, List.foldl_cons, pstep_nak1_three rfl rfl, List.foldl_nil]
  exact pend_of_pst rfl rfl

theorem afterNak_three_reason {c : Byte} (h1 : 0x31 ≤ c.toNat) (h4 : c.toNat ≤ 0x34) (r : List Byte) :
    ∃ x, afterNak m p (0x33#8 :: c :: r) =
        { pinit p with
          pcode := 0x33#8, prsn := c, pclass := .nakFailed, preason := reasonOf c, pst := .done, pterm := x }
      ∧ (x = true ↔ StartsWithTerminator r) := by
  rw [afterNak, List.foldl_cons, pstep_nak1_three rfl rfl, List.foldl_cons, pstep_nak2_reason rfl h1 h4]
  exact pend_foldl_nakt rfl rfl r

theorem afterNak_three_term {c : Byte} (hc : Terminator c) (r : List Byte) :
    afterNak m p (0x33#8 :: c :: r) =
      { pinit p with pcode := 0x33#8, prsn := c, pclass := .malformedNak, pst := .done, pterm := true } := by
  rw [afterNak, List.foldl_cons, pstep_nak1_three rfl rfl, List.foldl_cons, pstep_nak2_term rfl hc, foldl_pstep_done rfl,
    pend_of_done rfl]

theorem afterNak_three_other {c : Byte} (hc : c.toNat < 0x31 ∨ 0x34 < c.toNat) (ht : ¬Terminator c) (r : List Byte) :
    ∃ x, afterNak m p (0x33#8 :: c :: r) =
        { pinit p with pcode := 0x33#8, prsn := c, pclass := .nakUnknownReason, pst := .done, pterm := x }
      ∧ (x = true ↔ StartsWithTerminator r) := by
  rw [afterNak, List.foldl_cons, pstep_nak1_three rfl rfl, List.foldl_cons, pstep_nak2_other rfl hc ht]
  exact pend_foldl_nakt rfl rfl r

end Codes

/-- Settles O42: the parser is `afterNak` of the bytes after the NAK byte, and each clause reads off the registers of its
code and reason. -/
theorem nakFrameParses : Obligations.NakFrameParses := by
  intro s lead rest hfits hstring hlead
  have hparse := parseBytes_nak (m := s.params.maxPayload) hlead rest s.parser
  rw [show lead ++ nakByte :: rest = s.din.string from hstring.symm] at hparse
  refine ⟨_, exec_parse_of_fits hfits, rfl, ?_⟩
  rw [State.setStatus_parser, State.setParser_parser, hparse]
  generalize s.params.maxPayload = m, s.parser = p
  refine ⟨rfl, plen_afterNak rest, ?none, fun r hr => ?one, fun r hr => ?two, fun hr => ?three, fun c r hr h1 h4 => ?reason,
    fun c r hr ht => ?term, fun c r hr hc ht => ?unknown, fun c r hr hc => ?other⟩
  case none =>
    rintro rfl
    rw [afterNak_nil]
    exact ⟨rfl, rfl, rfl, rfl, rfl⟩
  case one =>
    obtain ⟨x, hx, hiff⟩ := afterNak_one m p r
    rw [hr, hx]
    exact ⟨rfl, rfl, rfl, rfl, hiff⟩
  case two =>
    obtain ⟨x, hx, hiff⟩ := afterNak_two m p r
    rw [hr, hx]
    exact ⟨rfl, rfl, rfl, rfl, hiff⟩
  case three =>
    rw [hr, afterNak_three_nil]
    exact ⟨rfl, rfl, rfl, rfl, rfl⟩
  case reason =>
    obtain ⟨x, hx, hiff⟩ := afterNak_three_reason m p h1 h4 r
    rw [hr, hx]
    exact ⟨rfl, toNat_code_reasonOf h1 h4, rfl, rfl, hiff⟩
  case term =>
    rw [hr, afterNak_three_term m p ht]
    exact ⟨rfl, rfl, rfl, rfl, rfl⟩
  case unknown =>
    obtain ⟨x, hx, hiff⟩ := afterNak_three_other m p hc ht r
    rw [hr, hx]
    exact ⟨rfl, rfl, rfl, rfl, hiff⟩
  case other =>
    obtain ⟨x, hx, hiff⟩ := afterNak_no_code m p hc r
    rw [hr, hx]
    exact ⟨rfl, rfl, rfl, rfl, hiff⟩

end Sys2Proof.Machine
end
